-- ==== Sys2Proof/Word.lean ====
section
/-! DEFINITION. The word types: an input or output byte, and a host register word. -/

namespace Sys2Proof

/-- One byte of IN, WIN or OUT (20_memory.md R100). -/
abbrev Byte := BitVec 8

/-- One 32-bit host register, counter or CRC (10_state.md R40, R42, R46, R63). -/
abbrev Word := BitVec 32

end Sys2Proof
end

