-- ==== Sys2Proof/Machine/BitReader.lean ====
section
/-! DEFINITION. The BitReader (spec/41_bitreader.md): its four registers, and its operations over the input bytes.
`inp` is IN, the byte source bound at START; its length is N. -/

namespace Sys2Proof.Machine

/-- The BitReader's registers (10_state.md R38 to R41). -/
structure BitReader where
  /-- BR_BYTE: the partial byte, its unconsumed bits right-aligned. -/
  byte : BitVec 8
  /-- BR_CNT: the count of unconsumed bits. -/
  cnt : BitVec 4
  /-- BR_CONSUMED: the count of input bytes taken. -/
  consumed : BitVec 32
  /-- BR_EXH: the exhausted flag. -/
  exh : Bool
  deriving DecidableEq, Repr, Inhabited

/-- What a fetch answers: a value, or the failure StreamExhausted; each with the reader it leaves. -/
inductive Fetched (α : Type) where
  | ok (v : α) (r : BitReader)
  | exhausted (r : BitReader)
  deriving DecidableEq, Repr

/-- One fetch after another; a failed first fetch ends the sequence (41_bitreader.md R203). -/
def Fetched.andThen {α β : Type} (f : Fetched α) (k : α → BitReader → Fetched β) : Fetched β :=
  match f with
  | .ok v r => k v r
  | .exhausted r => .exhausted r

/-- The same fetch, its value rewritten. -/
def Fetched.map {α β : Type} (g : α → β) (f : Fetched α) : Fetched β :=
  match f with
  | .ok v r => .ok (g v) r
  | .exhausted r => .exhausted r

/-- The initial state of the reader of an attempt (41_bitreader.md R200), BR_BYTE given. -/
def BitReader.fresh (byte : BitVec 8) : BitReader :=
  { byte := byte, cnt := 0, consumed := 0, exh := false }

/-- The refill inside fetchBit: `InRead()` of the byte at BR_CONSUMED (00_scope.md R17, 41_bitreader.md R201). -/
def refill (inp : List Byte) (r : BitReader) : Option BitReader :=
  match inp[r.consumed.toNat]? with
  | some b => some { r with byte := b, cnt := 8, consumed := r.consumed + 1 }
  | none => none

/-- Delivering bit 0 of the partial byte (41_bitreader.md R201, the last four lines). -/
def takeBit (r : BitReader) : Fetched Bool :=
  .ok (r.byte.getLsbD 0) { r with byte := r.byte >>> 1, cnt := r.cnt - 1 }

/-- fetchBit (41_bitreader.md R201, R202). -/
def fetchBit (inp : List Byte) (r : BitReader) : Fetched Bool :=
  if r.exh then .exhausted r
  else if r.cnt = 0 then
    match refill inp r with
    | some r' => takeBit r'
    | none => .exhausted { r with exh := true }
  else takeBit r

/-- fetchBits(n) (41_bitreader.md R203, R204): the first bit fetched is bit 0 of the value. -/
def fetchBits (inp : List Byte) : (n : Nat) → BitReader → Fetched (BitVec n)
  | 0, r => .ok 0#0 r
  | n + 1, r =>
    (fetchBit inp r).andThen fun b r1 =>
      (fetchBits inp n r1).map fun v => v.concat b

/-- moveToByteBoundary() (41_bitreader.md R206). -/
def moveToByteBoundary (r : BitReader) : BitReader := { r with cnt := 0 }

/-- bytesConsumed() (41_bitreader.md R207). -/
def bytesConsumed (r : BitReader) : Word := r.consumed

/-- The stream position P = 8 * BR_CONSUMED - BR_CNT (10_state.md R61). -/
def BitReader.position (r : BitReader) : Nat := 8 * r.consumed.toNat - r.cnt.toNat

/-- The bits of a fixed-width field in the order they are fetched, bit 0 first (20_memory.md R104). -/
def fieldBits : {n : Nat} → BitVec n → List Bool
  | 0, _ => []
  | n + 1, v => v.getLsbD 0 :: fieldBits (BitVec.extractLsb' 1 n v)

/-- The bits the reader has still to deliver, in fetch order (20_memory.md R103): those left in the partial byte, then
those of the bytes not yet taken. -/
def upcoming (inp : List Byte) (r : BitReader) : List Bool :=
  (fieldBits r.byte).take r.cnt.toNat ++ (inp.drop r.consumed.toNat).flatMap fieldBits

/-- A byte from its bits, bit 0 first; missing high bits are 0. -/
def byteOfBits (bits : List Bool) : Byte :=
  bits.foldr (fun b v => v.shiftConcat b) 0#8

/-- Bits in fetch order as the bytes that hold them, the last one filled with zeros (20_memory.md R103). -/
def packBits : List Bool → List Byte
  | b0 :: b1 :: b2 :: b3 :: b4 :: b5 :: b6 :: b7 :: rest =>
    byteOfBits [b0, b1, b2, b3, b4, b5, b6, b7] :: packBits rest
  | [] => []
  | rest => [byteOfBits rest]

end Sys2Proof.Machine
end

