-- ==== Sys2Proof/Machine/Huffman.lean ====
section
/-! DEFINITION. HuffmanTree (spec/43_huffman.md): the trie, place, build, decode, and the ROM trees FIXED_LL and
FIXED_D. -/

namespace Sys2Proof.Machine

/-- A trie node or a missing child (43_huffman.md R240). A tree's root is a `node`. -/
inductive Trie where
  /-- No child here. -/
  | absent
  /-- A leaf holding a decoded symbol. -/
  | leaf (symbol : Nat)
  /-- An internal node with its zero-bit and one-bit children. -/
  | node (zero one : Trie)
  deriving DecidableEq, Repr, Inhabited

/-- The tree with a root only: the value of the three tree stores after RESET (10_state.md R54). -/
def Trie.empty : Trie := .node .absent .absent

/-- `node.child[b]`; a leaf has none. -/
def Trie.child (b : Bool) : Trie → Trie
  | .node zero one => if b then one else zero
  | _ => .absent

/-- place (43_huffman.md R241): walk and create along the code's bits, most significant first. It answers none where
R242 fails with CODE_OVERSUBSCRIBED: a leaf met early, or a node already standing at the code's depth. -/
def Trie.place (symbol : Nat) : List Bool → Trie → Option Trie
  | [], .absent => some (.leaf symbol)
  | [], _ => none
  | _ :: _, .leaf _ => none
  | b :: code, .absent =>
    (Trie.place symbol code .absent).map fun t => if b then .node .absent t else .node t .absent
  | b :: code, .node zero one =>
    if b then (Trie.place symbol code one).map (.node zero ·)
    else (Trie.place symbol code zero).map (.node · one)

/-- Bits L-1 down to 0 of a code value, in transmission order (43_huffman.md R251, R252). -/
def codeBits (code : Nat) : Nat → List Bool
  | 0 => []
  | len + 1 => code.testBit len :: codeBits code len

/-- One length's pass of build over the symbols in ascending order (43_huffman.md R243, the inner loop). The pair is the
running code and the tree. -/
def placeLength (skip : List Nat) (len : Nat) : List (Nat × Nat) → Nat × Trie → Option (Nat × Trie)
  | [], acc => some acc
  | (l, s) :: rest, (code, t) =>
    if l = len then
      if skip.contains s then placeLength skip len rest (code + 1, t)
      else
        match t.place s (codeBits code len) with
        | some t' => placeLength skip len rest (code + 1, t')
        | none => none
    else placeLength skip len rest (code, t)

/-- The passes over the lengths mn..mx, the running code shifted after each (43_huffman.md R243, the outer loop). -/
def placeLengths (skip : List Nat) (lens : List (Nat × Nat)) : List Nat → Nat × Trie → Option Trie
  | [], (_, t) => some t
  | len :: rest, acc =>
    match placeLength skip len lens acc with
    | some (code, t) => placeLengths skip lens rest (code <<< 1, t)
    | none => none

/-- The lengths a build passes over: mn to mx, and none when every length is 0. -/
def lengthRange (lens : List Nat) : List Nat :=
  match (lens.filter (0 < ·)).min? with
  | none => []
  | some mn => List.range' mn (lens.foldl max 0 + 1 - mn)

/-- build(len, skip) (43_huffman.md R243, R244); none is CODE_OVERSUBSCRIBED. Symbol s has length `lens[s]`. -/
def build (lens : List Nat) (skip : List Nat) : Option Trie :=
  placeLengths skip lens.zipIdx (lengthRange lens) (0, .empty)

/-- The rest of decode's loop once a child has been chosen (43_huffman.md R249). none is the sentinel INVALID (R250). -/
def decodeFrom (inp : List Byte) : Trie → BitReader → Fetched (Option Nat)
  | .absent, r => .ok none r
  | .leaf s, r => .ok (some s) r
  | .node zero one, r =>
    match fetchBit inp r with
    | .exhausted r' => .exhausted r'
    | .ok b r' => if b then decodeFrom inp one r' else decodeFrom inp zero r'

/-- decode(T) (43_huffman.md R249): at least one bit is read. -/
def decodeSymbol (inp : List Byte) (t : Trie) (r : BitReader) : Fetched (Option Nat) :=
  (fetchBit inp r).andThen fun b r' => decodeFrom inp (t.child b) r'

/-- The walk of decode along given bits: the node the bits lead to. -/
def Trie.walk : List Bool → Trie → Trie
  | [], t => t
  | b :: bits, t => Trie.walk bits (t.child b)

/-- The code of the first leaf for a symbol, below a node. -/
def Trie.codeBelow (symbol : Nat) : Trie → Option (List Bool)
  | .absent => none
  | .leaf s => if s = symbol then some [] else none
  | .node zero one =>
    match Trie.codeBelow symbol zero with
    | some c => some (false :: c)
    | none => (Trie.codeBelow symbol one).map (true :: ·)

/-- The code of a symbol in a tree, in transmission order (43_huffman.md R252); none where the tree has no leaf for it. -/
def Trie.codeOf (symbol : Nat) : Trie → Option (List Bool)
  | .node zero one => Trie.codeBelow symbol (.node zero one)
  | _ => none

/-- The tree whose one leaf gives `symbol` the code 0 (43_huffman.md R253, its example for one symbol). -/
def Trie.single (symbol : Nat) : Trie := .node (.leaf symbol) .absent

/-- The lengths of the fixed literal/length tree (43_huffman.md R246). -/
def fixedLitLenLengths : List Nat :=
  List.replicate 144 8 ++ List.replicate 112 9 ++ List.replicate 24 7 ++ List.replicate 8 8

/-- FIXED_LL, a ROM (43_huffman.md R246, R247). -/
def fixedLitLen : Trie := (build fixedLitLenLengths [286, 287]).getD .empty

/-- FIXED_D, a ROM (43_huffman.md R248). -/
def fixedDist : Trie := (build (List.replicate 30 5) []).getD .empty

end Sys2Proof.Machine
end

