-- ==== Sys2Proof/Config.lean ====
section
/-! DEFINITION. What is fixed for the machine: the spec's parameters (00_scope.md R6 to R13), and the free values: constants
with no body, one for each kind of register the spec leaves at any value (60_exceptions.md R453, 49_host_interface.md
R401). -/

namespace Sys2Proof.Config

/-- P_WIN (00_scope.md R6). -/
def windowSize : Nat := 32768

/-- P_MAXBITS (00_scope.md R7). -/
def maxCodeLength : Nat := 15

/-- The input length N of a launch is below this (00_scope.md R10). -/
def inputLimit : Nat := 2 ^ 32

/-- P_CRC_POLY (00_scope.md R11). -/
def crcPoly : BitVec 32 := 0xEDB88320#32

/-- The default of XLEN_BYTES, a parameter of the host model (49_host_interface.md R416). -/
def xlenBytesDefault : Nat := 2

/-- The default of the thorough-mode flag (49_host_interface.md R430). -/
def thoroughDefault : Bool := true

/-- REG_BASE, the platform's base address of the register window (20_memory.md R116): left open by the spec, so it has no
value here. -/
opaque regBase : Nat

/-- The registers that can hold any value (60_exceptions.md R453). -/
inductive FreeReg where
  | bfinal | btype | useFixed
  | brByte | brCnt | brConsumed | brExh
  | crc | wp | held | total
  | stLen | stNlen | stRem
  | hlit | hdist | hclen | clIdx | lensIdx
  /-- Entry i of CL_LEN. -/
  | clLen (i : Nat)
  /-- Entry i of LENS. -/
  | lens (i : Nat)
  /-- TREE_CL, TREE_LL and TREE_D. -/
  | treeCl | treeLl | treeD
  deriving DecidableEq, Repr

/-- The free value of a register of width `w` at draw number `draw`. -/
opaque freeBits (w : Nat) (reg : FreeReg) (draw : Nat) : BitVec w

/-- The free value of a one-bit flag. -/
opaque freeFlag (reg : FreeReg) (draw : Nat) : Bool

/-- The free value of a tree store. -/
opaque freeTree (reg : FreeReg) (draw : Nat) : Sys2Proof.Machine.Trie

/-- The free contents of WIN, as writes to be made in order. -/
opaque freeCells (draw : Nat) : List Host.Cell

end Sys2Proof.Config
end

