-- ==== Sys2Proof/Machine/Operands.lean ====
section
/-! DEFINITION. The operand ROMs and the operand forms (spec/30_encoding.md R144 to R157): ORDER, LBASE/LEXT, DBASE/DEXT,
and the counts of a dynamic header. -/

namespace Sys2Proof.Machine

/-- ORDER, the code-length permutation (30_encoding.md R146). -/
def orderTable : List Nat := [16, 17, 18, 0, 8, 7, 9, 6, 10, 5, 11, 4, 12, 3, 13, 2, 14, 1, 15]

/-- LBASE and LEXT of the length codes 257 to 285 (30_encoding.md R151). -/
def lengthTable : List (Nat × Nat) :=
  [(3, 0), (4, 0), (5, 0), (6, 0), (7, 0), (8, 0), (9, 0), (10, 0),
   (11, 1), (13, 1), (15, 1), (17, 1)] ++
  [(19, 2), (23, 2), (27, 2), (31, 2), (35, 3), (43, 3), (51, 3), (59, 3)] ++
  [(67, 4), (83, 4), (99, 4), (115, 4), (131, 5), (163, 5), (195, 5), (227, 5), (258, 0)]

/-- LBASE[s]. -/
def lbase (s : Nat) : Nat := ((lengthTable[s - 257]?).getD (0, 0)).1

/-- LEXT[s]. -/
def lext (s : Nat) : Nat := ((lengthTable[s - 257]?).getD (0, 0)).2

/-- DBASE and DEXT of the distance codes 0 to 29 (30_encoding.md R152; the bases are the spec's supply, log 15). -/
def distanceTable : List (Nat × Nat) :=
  [(1, 0), (2, 0), (3, 0), (4, 0), (5, 1), (7, 1), (9, 2), (13, 2), (17, 3), (25, 3)] ++
  [(33, 4), (49, 4), (65, 5), (97, 5), (129, 6), (193, 6), (257, 7), (385, 7), (513, 8), (769, 8)] ++
  [(1025, 9), (1537, 9), (2049, 10), (3073, 10), (4097, 11), (6145, 11), (8193, 12), (12289, 12),
   (16385, 13), (24577, 13)]

/-- DBASE[c]. -/
def dbase (c : Nat) : Nat := ((distanceTable[c]?).getD (0, 0)).1

/-- DEXT[c]. -/
def dext (c : Nat) : Nat := ((distanceTable[c]?).getD (0, 0)).2

/-- The match length of a length code and its extra value (30_encoding.md R151, 47_symbols.md R363). -/
def matchLength (s e : Nat) : Nat := lbase s + e

/-- BACK, the zero-based back-distance of a distance code and its extra value (30_encoding.md R152, 47_symbols.md R374). -/
def backDistance (c e : Nat) : Nat := dbase c - 1 + e

/-- HLIT + 257 (30_encoding.md R144, R157). -/
def litLenCount (hlit : BitVec 5) : Nat := hlit.toNat + 257

/-- HDIST + 1. -/
def distCount (hdist : BitVec 5) : Nat := hdist.toNat + 1

/-- HCLEN + 4. -/
def codeLengthCount (hclen : BitVec 4) : Nat := hclen.toNat + 4

/-- The number of LENS entries, HLIT + HDIST + 258 (30_encoding.md R157). -/
def lensTotal (hlit hdist : BitVec 5) : Nat := hlit.toNat + hdist.toNat + 258

end Sys2Proof.Machine
end

