-- ==== Sys2Proof/Syntax.lean ====
section
/-! DEFINITION. The instructions: the syntax elements of a DEFLATE stream, one constructor for each row of
spec/opcode_table.json (00_scope.md R5, 30_encoding.md R140, R158). -/

namespace Sys2Proof

/-- The eight element formats (30_encoding.md R140). -/
inductive Format where
  /-- F-BH, block header. -/
  | bh
  /-- F-SH, stored header. -/
  | sh
  /-- F-SB, stored byte. -/
  | sb
  /-- F-DH, dynamic header. -/
  | dh
  /-- F-CLL, one code-length code length. -/
  | cll
  /-- F-CLS, one code-length symbol. -/
  | cls
  /-- F-LL, one literal/length symbol. -/
  | ll
  /-- F-D, one distance symbol. -/
  | d
  deriving DecidableEq, Repr

/-- A syntax element with its operands: `final` is BFINAL, `extra` the extra-bits value (30_encoding.md R156). -/
inductive Instr where
  /-- A block header with BTYPE 00 (30_encoding.md R141, 45_block_fsm.md R302). -/
  | blockStored (final : Bool)
  /-- A block header with BTYPE 01 (45_block_fsm.md R303). -/
  | blockFixed (final : Bool)
  /-- A block header with BTYPE 10 (45_block_fsm.md R304). -/
  | blockDynamic (final : Bool)
  /-- A block header with BTYPE 11, reserved (30_encoding.md R159). -/
  | blockReserved (final : Bool)
  /-- The aligned stored header, LEN and NLEN (30_encoding.md R142). -/
  | storedHdr (len : BitVec 16) (nlen : BitVec 16)
  /-- A stored byte (30_encoding.md R143). -/
  | storedByte (b : BitVec 8)
  /-- The dynamic header, its raw fields (30_encoding.md R144). -/
  | dynHdr (hlit : BitVec 5) (hdist : BitVec 5) (hclen : BitVec 4)
  /-- One code-length code length (30_encoding.md R145). -/
  | clLength (len : BitVec 3)
  /-- Code-length symbols 0 to 15: a literal length (30_encoding.md R147). -/
  | clLen (len : BitVec 4)
  /-- Code-length symbol 16: repeat the previous length. -/
  | clRepPrev (extra : BitVec 2)
  /-- Code-length symbol 17: repeat length 0, 3 to 10 times. -/
  | clRepZeroShort (extra : BitVec 3)
  /-- Code-length symbol 18: repeat length 0, 11 to 138 times. -/
  | clRepZeroLong (extra : BitVec 7)
  /-- Literal/length symbols 0 to 255: a literal byte (30_encoding.md R148). -/
  | lit (b : BitVec 8)
  /-- Literal/length symbol 256: end of block. -/
  | eob
  /-- Length code 257 with 0 extra bits (30_encoding.md R151). -/
  | len257
  /-- Length code 258 with 0 extra bits (30_encoding.md R151). -/
  | len258
  /-- Length code 259 with 0 extra bits (30_encoding.md R151). -/
  | len259
  /-- Length code 260 with 0 extra bits (30_encoding.md R151). -/
  | len260
  /-- Length code 261 with 0 extra bits (30_encoding.md R151). -/
  | len261
  /-- Length code 262 with 0 extra bits (30_encoding.md R151). -/
  | len262
  /-- Length code 263 with 0 extra bits (30_encoding.md R151). -/
  | len263
  /-- Length code 264 with 0 extra bits (30_encoding.md R151). -/
  | len264
  /-- Length code 265 with 1 extra bits (30_encoding.md R151). -/
  | len265 (extra : BitVec 1)
  /-- Length code 266 with 1 extra bits (30_encoding.md R151). -/
  | len266 (extra : BitVec 1)
  /-- Length code 267 with 1 extra bits (30_encoding.md R151). -/
  | len267 (extra : BitVec 1)
  /-- Length code 268 with 1 extra bits (30_encoding.md R151). -/
  | len268 (extra : BitVec 1)
  /-- Length code 269 with 2 extra bits (30_encoding.md R151). -/
  | len269 (extra : BitVec 2)
  /-- Length code 270 with 2 extra bits (30_encoding.md R151). -/
  | len270 (extra : BitVec 2)
  /-- Length code 271 with 2 extra bits (30_encoding.md R151). -/
  | len271 (extra : BitVec 2)
  /-- Length code 272 with 2 extra bits (30_encoding.md R151). -/
  | len272 (extra : BitVec 2)
  /-- Length code 273 with 3 extra bits (30_encoding.md R151). -/
  | len273 (extra : BitVec 3)
  /-- Length code 274 with 3 extra bits (30_encoding.md R151). -/
  | len274 (extra : BitVec 3)
  /-- Length code 275 with 3 extra bits (30_encoding.md R151). -/
  | len275 (extra : BitVec 3)
  /-- Length code 276 with 3 extra bits (30_encoding.md R151). -/
  | len276 (extra : BitVec 3)
  /-- Length code 277 with 4 extra bits (30_encoding.md R151). -/
  | len277 (extra : BitVec 4)
  /-- Length code 278 with 4 extra bits (30_encoding.md R151). -/
  | len278 (extra : BitVec 4)
  /-- Length code 279 with 4 extra bits (30_encoding.md R151). -/
  | len279 (extra : BitVec 4)
  /-- Length code 280 with 4 extra bits (30_encoding.md R151). -/
  | len280 (extra : BitVec 4)
  /-- Length code 281 with 5 extra bits (30_encoding.md R151). -/
  | len281 (extra : BitVec 5)
  /-- Length code 282 with 5 extra bits (30_encoding.md R151). -/
  | len282 (extra : BitVec 5)
  /-- Length code 283 with 5 extra bits (30_encoding.md R151). -/
  | len283 (extra : BitVec 5)
  /-- Length code 284 with 5 extra bits (30_encoding.md R151). -/
  | len284 (extra : BitVec 5)
  /-- Length code 285 with 0 extra bits (30_encoding.md R151). -/
  | len285
  /-- Literal/length symbol 286, illegal (30_encoding.md R161). -/
  | llInvalid286
  /-- Literal/length symbol 287, illegal (30_encoding.md R161). -/
  | llInvalid287
  /-- Distance code 0 with 0 extra bits (30_encoding.md R152). -/
  | dist0
  /-- Distance code 1 with 0 extra bits (30_encoding.md R152). -/
  | dist1
  /-- Distance code 2 with 0 extra bits (30_encoding.md R152). -/
  | dist2
  /-- Distance code 3 with 0 extra bits (30_encoding.md R152). -/
  | dist3
  /-- Distance code 4 with 1 extra bits (30_encoding.md R152). -/
  | dist4 (extra : BitVec 1)
  /-- Distance code 5 with 1 extra bits (30_encoding.md R152). -/
  | dist5 (extra : BitVec 1)
  /-- Distance code 6 with 2 extra bits (30_encoding.md R152). -/
  | dist6 (extra : BitVec 2)
  /-- Distance code 7 with 2 extra bits (30_encoding.md R152). -/
  | dist7 (extra : BitVec 2)
  /-- Distance code 8 with 3 extra bits (30_encoding.md R152). -/
  | dist8 (extra : BitVec 3)
  /-- Distance code 9 with 3 extra bits (30_encoding.md R152). -/
  | dist9 (extra : BitVec 3)
  /-- Distance code 10 with 4 extra bits (30_encoding.md R152). -/
  | dist10 (extra : BitVec 4)
  /-- Distance code 11 with 4 extra bits (30_encoding.md R152). -/
  | dist11 (extra : BitVec 4)
  /-- Distance code 12 with 5 extra bits (30_encoding.md R152). -/
  | dist12 (extra : BitVec 5)
  /-- Distance code 13 with 5 extra bits (30_encoding.md R152). -/
  | dist13 (extra : BitVec 5)
  /-- Distance code 14 with 6 extra bits (30_encoding.md R152). -/
  | dist14 (extra : BitVec 6)
  /-- Distance code 15 with 6 extra bits (30_encoding.md R152). -/
  | dist15 (extra : BitVec 6)
  /-- Distance code 16 with 7 extra bits (30_encoding.md R152). -/
  | dist16 (extra : BitVec 7)
  /-- Distance code 17 with 7 extra bits (30_encoding.md R152). -/
  | dist17 (extra : BitVec 7)
  /-- Distance code 18 with 8 extra bits (30_encoding.md R152). -/
  | dist18 (extra : BitVec 8)
  /-- Distance code 19 with 8 extra bits (30_encoding.md R152). -/
  | dist19 (extra : BitVec 8)
  /-- Distance code 20 with 9 extra bits (30_encoding.md R152). -/
  | dist20 (extra : BitVec 9)
  /-- Distance code 21 with 9 extra bits (30_encoding.md R152). -/
  | dist21 (extra : BitVec 9)
  /-- Distance code 22 with 10 extra bits (30_encoding.md R152). -/
  | dist22 (extra : BitVec 10)
  /-- Distance code 23 with 10 extra bits (30_encoding.md R152). -/
  | dist23 (extra : BitVec 10)
  /-- Distance code 24 with 11 extra bits (30_encoding.md R152). -/
  | dist24 (extra : BitVec 11)
  /-- Distance code 25 with 11 extra bits (30_encoding.md R152). -/
  | dist25 (extra : BitVec 11)
  /-- Distance code 26 with 12 extra bits (30_encoding.md R152). -/
  | dist26 (extra : BitVec 12)
  /-- Distance code 27 with 12 extra bits (30_encoding.md R152). -/
  | dist27 (extra : BitVec 12)
  /-- Distance code 28 with 13 extra bits (30_encoding.md R152). -/
  | dist28 (extra : BitVec 13)
  /-- Distance code 29 with 13 extra bits (30_encoding.md R152). -/
  | dist29 (extra : BitVec 13)
  /-- Distance symbol 30, illegal (30_encoding.md R162). -/
  | distInvalid30
  /-- Distance symbol 31, illegal (30_encoding.md R162). -/
  | distInvalid31
  deriving DecidableEq, Repr

/-- The format an element is written in (30_encoding.md R140). -/
def Instr.format : Instr → Format
  | .blockStored _ => .bh
  | .blockFixed _ => .bh
  | .blockDynamic _ => .bh
  | .blockReserved _ => .bh
  | .storedHdr _ _ => .sh
  | .storedByte _ => .sb
  | .dynHdr _ _ _ => .dh
  | .clLength _ => .cll
  | .clLen _ => .cls
  | .clRepPrev _ => .cls
  | .clRepZeroShort _ => .cls
  | .clRepZeroLong _ => .cls
  | .lit _ => .ll
  | .eob => .ll
  | .len257 => .ll
  | .len258 => .ll
  | .len259 => .ll
  | .len260 => .ll
  | .len261 => .ll
  | .len262 => .ll
  | .len263 => .ll
  | .len264 => .ll
  | .len265 _ => .ll
  | .len266 _ => .ll
  | .len267 _ => .ll
  | .len268 _ => .ll
  | .len269 _ => .ll
  | .len270 _ => .ll
  | .len271 _ => .ll
  | .len272 _ => .ll
  | .len273 _ => .ll
  | .len274 _ => .ll
  | .len275 _ => .ll
  | .len276 _ => .ll
  | .len277 _ => .ll
  | .len278 _ => .ll
  | .len279 _ => .ll
  | .len280 _ => .ll
  | .len281 _ => .ll
  | .len282 _ => .ll
  | .len283 _ => .ll
  | .len284 _ => .ll
  | .len285 => .ll
  | .llInvalid286 => .ll
  | .llInvalid287 => .ll
  | .dist0 => .d
  | .dist1 => .d
  | .dist2 => .d
  | .dist3 => .d
  | .dist4 _ => .d
  | .dist5 _ => .d
  | .dist6 _ => .d
  | .dist7 _ => .d
  | .dist8 _ => .d
  | .dist9 _ => .d
  | .dist10 _ => .d
  | .dist11 _ => .d
  | .dist12 _ => .d
  | .dist13 _ => .d
  | .dist14 _ => .d
  | .dist15 _ => .d
  | .dist16 _ => .d
  | .dist17 _ => .d
  | .dist18 _ => .d
  | .dist19 _ => .d
  | .dist20 _ => .d
  | .dist21 _ => .d
  | .dist22 _ => .d
  | .dist23 _ => .d
  | .dist24 _ => .d
  | .dist25 _ => .d
  | .dist26 _ => .d
  | .dist27 _ => .d
  | .dist28 _ => .d
  | .dist29 _ => .d
  | .distInvalid30 => .d
  | .distInvalid31 => .d

end Sys2Proof
end

