-- ==== Sys2Proof/WellFormed.lean ====
section
/-! DEFINITION. Which elements are legal by their own fields (30_encoding.md R159 to R164). An element that is not legal
still decodes and still has a meaning: it fails the attempt with the cause the spec gives it. -/

namespace Sys2Proof

/-- Legal by its own fields. What depends on the state (symbol 16 with no previous length, a repeat past the end, a
distance too far back) is the machine's check, not this one (log 23). -/
def Instr.wellFormed : Instr → Bool
  | .blockStored _ => true
  | .blockFixed _ => true
  | .blockDynamic _ => true
  | .blockReserved _ => false
  | .storedHdr len nlen => nlen == ~~~len
  | .storedByte _ => true
  | .dynHdr hlit _ _ => decide (hlit.toNat + 257 ≤ 286)
  | .clLength _ => true
  | .clLen _ => true
  | .clRepPrev _ => true
  | .clRepZeroShort _ => true
  | .clRepZeroLong _ => true
  | .lit _ => true
  | .eob => true
  | .len257 => true
  | .len258 => true
  | .len259 => true
  | .len260 => true
  | .len261 => true
  | .len262 => true
  | .len263 => true
  | .len264 => true
  | .len265 _ => true
  | .len266 _ => true
  | .len267 _ => true
  | .len268 _ => true
  | .len269 _ => true
  | .len270 _ => true
  | .len271 _ => true
  | .len272 _ => true
  | .len273 _ => true
  | .len274 _ => true
  | .len275 _ => true
  | .len276 _ => true
  | .len277 _ => true
  | .len278 _ => true
  | .len279 _ => true
  | .len280 _ => true
  | .len281 _ => true
  | .len282 _ => true
  | .len283 _ => true
  | .len284 _ => true
  | .len285 => true
  | .llInvalid286 => false
  | .llInvalid287 => false
  | .dist0 => true
  | .dist1 => true
  | .dist2 => true
  | .dist3 => true
  | .dist4 _ => true
  | .dist5 _ => true
  | .dist6 _ => true
  | .dist7 _ => true
  | .dist8 _ => true
  | .dist9 _ => true
  | .dist10 _ => true
  | .dist11 _ => true
  | .dist12 _ => true
  | .dist13 _ => true
  | .dist14 _ => true
  | .dist15 _ => true
  | .dist16 _ => true
  | .dist17 _ => true
  | .dist18 _ => true
  | .dist19 _ => true
  | .dist20 _ => true
  | .dist21 _ => true
  | .dist22 _ => true
  | .dist23 _ => true
  | .dist24 _ => true
  | .dist25 _ => true
  | .dist26 _ => true
  | .dist27 _ => true
  | .dist28 _ => true
  | .dist29 _ => true
  | .distInvalid30 => false
  | .distInvalid31 => false

end Sys2Proof
end

