-- ==== Sys2Proof/Decode.lean ====
section
/-! DEFINITION. The decoder: which element the upcoming bits are, in the format the phase expects (30_encoding.md R140,
R158), over the BitReader; then the encoder; then the numbers of spec/opcode_table.json read through the decoder. -/

namespace Sys2Proof

open Sys2Proof.Machine

/-- What the decoder expects next: the format, and for a coded symbol the tree (30_encoding.md R140, R167). -/
inductive Context where
  | header
  | storedHeader
  | storedByte
  | dynHeader
  | clLength
  /-- A code-length symbol from `tree`; `hasPrev` says that a length was stored before (LENS_IDX is not 0). -/
  | clSymbol (tree : Trie) (hasPrev : Bool)
  | litLen (tree : Trie)
  | dist (tree : Trie)
  deriving DecidableEq, Repr

/-- The format a context expects. -/
def Context.format : Context → Format
  | .header => .bh
  | .storedHeader => .sh
  | .storedByte => .sb
  | .dynHeader => .dh
  | .clLength => .cll
  | .clSymbol _ _ => .cls
  | .litLen _ => .ll
  | .dist _ => .d

/-- Why bits are no element: each name is the cause of the failure (60_exceptions.md R451). -/
inductive DecodeError where
  /-- No leaf in the code-length tree, or a symbol above 18 (46_dynamic_header.md R336, R343; log 13). -/
  | clInvalidCode
  /-- No leaf in the literal/length tree (47_symbols.md R371). -/
  | litLenInvalidCode
  /-- A literal/length symbol above 287 (47_symbols.md R360, R372; log 13). -/
  | litLenSymbolRange
  /-- No leaf in the distance tree (47_symbols.md R377). -/
  | distInvalidCode
  /-- A distance symbol above 31 (47_symbols.md R360, R375; log 13). -/
  | distSymbolRange
  deriving DecidableEq, Repr

/-- The answer of the decoder: an element or a named rejection, with the reader after it; or StreamExhausted. -/
abbrev Decoded := Fetched (Except DecodeError Instr)

/-- An element whose symbol is followed by `n` extra bits (30_encoding.md R156). -/
def withExtra (n : Nat) (mk : BitVec n → Instr) (inp : List Byte) (r : BitReader) : Decoded :=
  (fetchBits inp n r).map fun e => .ok (mk e)

/-- An element whose symbol is followed by no extra bit (41_bitreader.md R204). -/
def noExtra (i : Instr) (r : BitReader) : Decoded := .ok (.ok i) r

/-- F-BH from its three bits (30_encoding.md R141). -/
def headerElement (h : BitVec 3) : Instr :=
  match (BitVec.extractLsb' 1 2 h).toNat with
  | 0 => .blockStored (h.getLsbD 0)
  | 1 => .blockFixed (h.getLsbD 0)
  | 2 => .blockDynamic (h.getLsbD 0)
  | _ => .blockReserved (h.getLsbD 0)

/-- F-CLS after its symbol (30_encoding.md R147). Symbol 16 with no previous length has failed before its extra bits are
read (46_dynamic_header.md R339): none are fetched for it (log 17). -/
def clElement (hasPrev : Bool) (sym : Nat) (inp : List Byte) (r : BitReader) : Decoded :=
  if sym ≤ 15 then noExtra (.clLen (BitVec.ofNat 4 sym)) r
  else if sym = 16 then
    if hasPrev then withExtra 2 .clRepPrev inp r else noExtra (.clRepPrev 0#2) r
  else if sym = 17 then withExtra 3 .clRepZeroShort inp r
  else if sym = 18 then withExtra 7 .clRepZeroLong inp r
  else .ok (.error .clInvalidCode) r

/-- F-LL after its symbol: EOB, the length codes and the two illegal symbols (30_encoding.md R148, R151, R161). -/
def lengthElement (sym : Nat) (inp : List Byte) (r : BitReader) : Decoded :=
  match sym with
  | 256 => noExtra .eob r
  | 257 => noExtra .len257 r
  | 258 => noExtra .len258 r
  | 259 => noExtra .len259 r
  | 260 => noExtra .len260 r
  | 261 => noExtra .len261 r
  | 262 => noExtra .len262 r
  | 263 => noExtra .len263 r
  | 264 => noExtra .len264 r
  | 265 => withExtra 1 .len265 inp r
  | 266 => withExtra 1 .len266 inp r
  | 267 => withExtra 1 .len267 inp r
  | 268 => withExtra 1 .len268 inp r
  | 269 => withExtra 2 .len269 inp r
  | 270 => withExtra 2 .len270 inp r
  | 271 => withExtra 2 .len271 inp r
  | 272 => withExtra 2 .len272 inp r
  | 273 => withExtra 3 .len273 inp r
  | 274 => withExtra 3 .len274 inp r
  | 275 => withExtra 3 .len275 inp r
  | 276 => withExtra 3 .len276 inp r
  | 277 => withExtra 4 .len277 inp r
  | 278 => withExtra 4 .len278 inp r
  | 279 => withExtra 4 .len279 inp r
  | 280 => withExtra 4 .len280 inp r
  | 281 => withExtra 5 .len281 inp r
  | 282 => withExtra 5 .len282 inp r
  | 283 => withExtra 5 .len283 inp r
  | 284 => withExtra 5 .len284 inp r
  | 285 => noExtra .len285 r
  | 286 => noExtra .llInvalid286 r
  | 287 => noExtra .llInvalid287 r
  | _ => .ok (.error .litLenSymbolRange) r

/-- F-LL after its symbol (30_encoding.md R148). -/
def litLenElement (sym : Nat) (inp : List Byte) (r : BitReader) : Decoded :=
  if sym ≤ 255 then noExtra (.lit (BitVec.ofNat 8 sym)) r else lengthElement sym inp r

/-- F-D after its symbol (30_encoding.md R149, R152, R162). -/
def distElement (sym : Nat) (inp : List Byte) (r : BitReader) : Decoded :=
  match sym with
  | 0 => noExtra .dist0 r
  | 1 => noExtra .dist1 r
  | 2 => noExtra .dist2 r
  | 3 => noExtra .dist3 r
  | 4 => withExtra 1 .dist4 inp r
  | 5 => withExtra 1 .dist5 inp r
  | 6 => withExtra 2 .dist6 inp r
  | 7 => withExtra 2 .dist7 inp r
  | 8 => withExtra 3 .dist8 inp r
  | 9 => withExtra 3 .dist9 inp r
  | 10 => withExtra 4 .dist10 inp r
  | 11 => withExtra 4 .dist11 inp r
  | 12 => withExtra 5 .dist12 inp r
  | 13 => withExtra 5 .dist13 inp r
  | 14 => withExtra 6 .dist14 inp r
  | 15 => withExtra 6 .dist15 inp r
  | 16 => withExtra 7 .dist16 inp r
  | 17 => withExtra 7 .dist17 inp r
  | 18 => withExtra 8 .dist18 inp r
  | 19 => withExtra 8 .dist19 inp r
  | 20 => withExtra 9 .dist20 inp r
  | 21 => withExtra 9 .dist21 inp r
  | 22 => withExtra 10 .dist22 inp r
  | 23 => withExtra 10 .dist23 inp r
  | 24 => withExtra 11 .dist24 inp r
  | 25 => withExtra 11 .dist25 inp r
  | 26 => withExtra 12 .dist26 inp r
  | 27 => withExtra 12 .dist27 inp r
  | 28 => withExtra 13 .dist28 inp r
  | 29 => withExtra 13 .dist29 inp r
  | 30 => noExtra .distInvalid30 r
  | 31 => noExtra .distInvalid31 r
  | _ => .ok (.error .distSymbolRange) r

/-- A Huffman-coded element: the symbol's walk, then the element's own extra bits (30_encoding.md R167). -/
def codedElement (tree : Trie) (invalid : DecodeError) (element : Nat → List Byte → BitReader → Decoded)
    (inp : List Byte) (r : BitReader) : Decoded :=
  (decodeSymbol inp tree r).andThen fun sym r1 =>
    match sym with
    | none => .ok (.error invalid) r1
    | some s => element s inp r1

/-- The decoder: the next element of the stream, total on any bytes. -/
def decodeElement (c : Context) (inp : List Byte) (r : BitReader) : Decoded :=
  match c with
  | .header => (fetchBits inp 3 r).map fun h => .ok (headerElement h)
  | .storedHeader =>
    (fetchBits inp 16 (moveToByteBoundary r)).andThen fun len r1 =>
      (fetchBits inp 16 r1).map fun nlen => .ok (.storedHdr len nlen)
  | .storedByte => (fetchBits inp 8 r).map fun b => .ok (.storedByte b)
  | .dynHeader =>
    (fetchBits inp 5 r).andThen fun hlit r1 =>
      (fetchBits inp 5 r1).andThen fun hdist r2 =>
        (fetchBits inp 4 r2).map fun hclen => .ok (.dynHdr hlit hdist hclen)
  | .clLength => (fetchBits inp 3 r).map fun l => .ok (.clLength l)
  | .clSymbol tree hasPrev => codedElement tree .clInvalidCode (clElement hasPrev) inp r
  | .litLen tree => codedElement tree .litLenInvalidCode litLenElement inp r
  | .dist tree => codedElement tree .distInvalidCode distElement inp r

/-- Where the reader stands when an element's own bits begin: a stored header begins at the next byte boundary
(20_memory.md R110), every other element right here. -/
def Context.entry (c : Context) (r : BitReader) : BitReader :=
  match c with
  | .storedHeader => moveToByteBoundary r
  | _ => r

/-- The symbol of a coded element (30_encoding.md R155); 0 for an element of a fixed format. -/
def Instr.symbol : Instr → Nat
  | .blockStored _ => 0
  | .blockFixed _ => 0
  | .blockDynamic _ => 0
  | .blockReserved _ => 0
  | .storedHdr _ _ => 0
  | .storedByte _ => 0
  | .dynHdr _ _ _ => 0
  | .clLength _ => 0
  | .clLen len => len.toNat
  | .clRepPrev _ => 16
  | .clRepZeroShort _ => 17
  | .clRepZeroLong _ => 18
  | .lit b => b.toNat
  | .eob => 256
  | .len257 => 257
  | .len258 => 258
  | .len259 => 259
  | .len260 => 260
  | .len261 => 261
  | .len262 => 262
  | .len263 => 263
  | .len264 => 264
  | .len265 _ => 265
  | .len266 _ => 266
  | .len267 _ => 267
  | .len268 _ => 268
  | .len269 _ => 269
  | .len270 _ => 270
  | .len271 _ => 271
  | .len272 _ => 272
  | .len273 _ => 273
  | .len274 _ => 274
  | .len275 _ => 275
  | .len276 _ => 276
  | .len277 _ => 277
  | .len278 _ => 278
  | .len279 _ => 279
  | .len280 _ => 280
  | .len281 _ => 281
  | .len282 _ => 282
  | .len283 _ => 283
  | .len284 _ => 284
  | .len285 => 285
  | .llInvalid286 => 286
  | .llInvalid287 => 287
  | .dist0 => 0
  | .dist1 => 1
  | .dist2 => 2
  | .dist3 => 3
  | .dist4 _ => 4
  | .dist5 _ => 5
  | .dist6 _ => 6
  | .dist7 _ => 7
  | .dist8 _ => 8
  | .dist9 _ => 9
  | .dist10 _ => 10
  | .dist11 _ => 11
  | .dist12 _ => 12
  | .dist13 _ => 13
  | .dist14 _ => 14
  | .dist15 _ => 15
  | .dist16 _ => 16
  | .dist17 _ => 17
  | .dist18 _ => 18
  | .dist19 _ => 19
  | .dist20 _ => 20
  | .dist21 _ => 21
  | .dist22 _ => 22
  | .dist23 _ => 23
  | .dist24 _ => 24
  | .dist25 _ => 25
  | .dist26 _ => 26
  | .dist27 _ => 27
  | .dist28 _ => 28
  | .dist29 _ => 29
  | .distInvalid30 => 30
  | .distInvalid31 => 31

/-- The extra-bits value of a coded element (30_encoding.md R156); 0 where it has none. -/
def Instr.extraValue : Instr → Nat
  | .blockStored _ => 0
  | .blockFixed _ => 0
  | .blockDynamic _ => 0
  | .blockReserved _ => 0
  | .storedHdr _ _ => 0
  | .storedByte _ => 0
  | .dynHdr _ _ _ => 0
  | .clLength _ => 0
  | .clLen _ => 0
  | .clRepPrev extra => extra.toNat
  | .clRepZeroShort extra => extra.toNat
  | .clRepZeroLong extra => extra.toNat
  | .lit _ => 0
  | .eob => 0
  | .len257 => 0
  | .len258 => 0
  | .len259 => 0
  | .len260 => 0
  | .len261 => 0
  | .len262 => 0
  | .len263 => 0
  | .len264 => 0
  | .len265 extra => extra.toNat
  | .len266 extra => extra.toNat
  | .len267 extra => extra.toNat
  | .len268 extra => extra.toNat
  | .len269 extra => extra.toNat
  | .len270 extra => extra.toNat
  | .len271 extra => extra.toNat
  | .len272 extra => extra.toNat
  | .len273 extra => extra.toNat
  | .len274 extra => extra.toNat
  | .len275 extra => extra.toNat
  | .len276 extra => extra.toNat
  | .len277 extra => extra.toNat
  | .len278 extra => extra.toNat
  | .len279 extra => extra.toNat
  | .len280 extra => extra.toNat
  | .len281 extra => extra.toNat
  | .len282 extra => extra.toNat
  | .len283 extra => extra.toNat
  | .len284 extra => extra.toNat
  | .len285 => 0
  | .llInvalid286 => 0
  | .llInvalid287 => 0
  | .dist0 => 0
  | .dist1 => 0
  | .dist2 => 0
  | .dist3 => 0
  | .dist4 extra => extra.toNat
  | .dist5 extra => extra.toNat
  | .dist6 extra => extra.toNat
  | .dist7 extra => extra.toNat
  | .dist8 extra => extra.toNat
  | .dist9 extra => extra.toNat
  | .dist10 extra => extra.toNat
  | .dist11 extra => extra.toNat
  | .dist12 extra => extra.toNat
  | .dist13 extra => extra.toNat
  | .dist14 extra => extra.toNat
  | .dist15 extra => extra.toNat
  | .dist16 extra => extra.toNat
  | .dist17 extra => extra.toNat
  | .dist18 extra => extra.toNat
  | .dist19 extra => extra.toNat
  | .dist20 extra => extra.toNat
  | .dist21 extra => extra.toNat
  | .dist22 extra => extra.toNat
  | .dist23 extra => extra.toNat
  | .dist24 extra => extra.toNat
  | .dist25 extra => extra.toNat
  | .dist26 extra => extra.toNat
  | .dist27 extra => extra.toNat
  | .dist28 extra => extra.toNat
  | .dist29 extra => extra.toNat
  | .distInvalid30 => 0
  | .distInvalid31 => 0

/-- The extra bits of a coded element, in fetch order (20_memory.md R104). -/
def Instr.extraBits : Instr → List Bool
  | .blockStored _ => []
  | .blockFixed _ => []
  | .blockDynamic _ => []
  | .blockReserved _ => []
  | .storedHdr _ _ => []
  | .storedByte _ => []
  | .dynHdr _ _ _ => []
  | .clLength _ => []
  | .clLen _ => []
  | .clRepPrev extra => fieldBits extra
  | .clRepZeroShort extra => fieldBits extra
  | .clRepZeroLong extra => fieldBits extra
  | .lit _ => []
  | .eob => []
  | .len257 => []
  | .len258 => []
  | .len259 => []
  | .len260 => []
  | .len261 => []
  | .len262 => []
  | .len263 => []
  | .len264 => []
  | .len265 extra => fieldBits extra
  | .len266 extra => fieldBits extra
  | .len267 extra => fieldBits extra
  | .len268 extra => fieldBits extra
  | .len269 extra => fieldBits extra
  | .len270 extra => fieldBits extra
  | .len271 extra => fieldBits extra
  | .len272 extra => fieldBits extra
  | .len273 extra => fieldBits extra
  | .len274 extra => fieldBits extra
  | .len275 extra => fieldBits extra
  | .len276 extra => fieldBits extra
  | .len277 extra => fieldBits extra
  | .len278 extra => fieldBits extra
  | .len279 extra => fieldBits extra
  | .len280 extra => fieldBits extra
  | .len281 extra => fieldBits extra
  | .len282 extra => fieldBits extra
  | .len283 extra => fieldBits extra
  | .len284 extra => fieldBits extra
  | .len285 => []
  | .llInvalid286 => []
  | .llInvalid287 => []
  | .dist0 => []
  | .dist1 => []
  | .dist2 => []
  | .dist3 => []
  | .dist4 extra => fieldBits extra
  | .dist5 extra => fieldBits extra
  | .dist6 extra => fieldBits extra
  | .dist7 extra => fieldBits extra
  | .dist8 extra => fieldBits extra
  | .dist9 extra => fieldBits extra
  | .dist10 extra => fieldBits extra
  | .dist11 extra => fieldBits extra
  | .dist12 extra => fieldBits extra
  | .dist13 extra => fieldBits extra
  | .dist14 extra => fieldBits extra
  | .dist15 extra => fieldBits extra
  | .dist16 extra => fieldBits extra
  | .dist17 extra => fieldBits extra
  | .dist18 extra => fieldBits extra
  | .dist19 extra => fieldBits extra
  | .dist20 extra => fieldBits extra
  | .dist21 extra => fieldBits extra
  | .dist22 extra => fieldBits extra
  | .dist23 extra => fieldBits extra
  | .dist24 extra => fieldBits extra
  | .dist25 extra => fieldBits extra
  | .dist26 extra => fieldBits extra
  | .dist27 extra => fieldBits extra
  | .dist28 extra => fieldBits extra
  | .dist29 extra => fieldBits extra
  | .distInvalid30 => []
  | .distInvalid31 => []

/-- The fields of an element of a fixed format, in fetch order (30_encoding.md R141 to R145); none for a coded one. -/
def Instr.fixedBits : Instr → Option (List Bool)
  | .blockStored final => some [final, false, false]
  | .blockFixed final => some [final, true, false]
  | .blockDynamic final => some [final, false, true]
  | .blockReserved final => some [final, true, true]
  | .storedHdr len nlen => some (fieldBits len ++ fieldBits nlen)
  | .storedByte b => some (fieldBits b)
  | .dynHdr hlit hdist hclen => some (fieldBits hlit ++ fieldBits hdist ++ fieldBits hclen)
  | .clLength len => some (fieldBits len)
  | .clLen _ => none
  | .clRepPrev _ => none
  | .clRepZeroShort _ => none
  | .clRepZeroLong _ => none
  | .lit _ => none
  | .eob => none
  | .len257 => none
  | .len258 => none
  | .len259 => none
  | .len260 => none
  | .len261 => none
  | .len262 => none
  | .len263 => none
  | .len264 => none
  | .len265 _ => none
  | .len266 _ => none
  | .len267 _ => none
  | .len268 _ => none
  | .len269 _ => none
  | .len270 _ => none
  | .len271 _ => none
  | .len272 _ => none
  | .len273 _ => none
  | .len274 _ => none
  | .len275 _ => none
  | .len276 _ => none
  | .len277 _ => none
  | .len278 _ => none
  | .len279 _ => none
  | .len280 _ => none
  | .len281 _ => none
  | .len282 _ => none
  | .len283 _ => none
  | .len284 _ => none
  | .len285 => none
  | .llInvalid286 => none
  | .llInvalid287 => none
  | .dist0 => none
  | .dist1 => none
  | .dist2 => none
  | .dist3 => none
  | .dist4 _ => none
  | .dist5 _ => none
  | .dist6 _ => none
  | .dist7 _ => none
  | .dist8 _ => none
  | .dist9 _ => none
  | .dist10 _ => none
  | .dist11 _ => none
  | .dist12 _ => none
  | .dist13 _ => none
  | .dist14 _ => none
  | .dist15 _ => none
  | .dist16 _ => none
  | .dist17 _ => none
  | .dist18 _ => none
  | .dist19 _ => none
  | .dist20 _ => none
  | .dist21 _ => none
  | .dist22 _ => none
  | .dist23 _ => none
  | .dist24 _ => none
  | .dist25 _ => none
  | .dist26 _ => none
  | .dist27 _ => none
  | .dist28 _ => none
  | .dist29 _ => none
  | .distInvalid30 => none
  | .distInvalid31 => none

/-- The bits of a coded element with a tree: the symbol's code, then the extra bits. -/
def encodeCoded (tree : Trie) (i : Instr) : Option (List Bool) :=
  (tree.codeOf i.symbol).map (· ++ i.extraBits)

/-- The encoder: the bits of an element where the context expects its format; none where it does not, or where the tree
has no code for its symbol. A symbol 16 with no previous length carries no extra bits (46_dynamic_header.md R339). -/
def encode (c : Context) (i : Instr) : Option (List Bool) :=
  if i.format = c.format then
    match c with
    | .clSymbol tree hasPrev =>
      if i.symbol = 16 ∧ hasPrev = false then
        if i.extraValue = 0 then tree.codeOf 16 else none
      else encodeCoded tree i
    | .litLen tree => encodeCoded tree i
    | .dist tree => encodeCoded tree i
    | _ => i.fixedBits
  else none

/-- An element named by a number of spec/opcode_table.json: its value space and its value there (30_encoding.md R155). -/
inductive TableElement where
  | header (h : BitVec 3)
  | storedHeader (len nlen : BitVec 16)
  | clSymbol (sym : Nat)
  | litLen (sym : Nat)
  | dist (sym : Nat)
  deriving DecidableEq, Repr

/-- Which row's value a number of `nbits` bits is. The table's value spaces overlap (a number alone does not name a row),
so where two rows share a number and a width one of them is taken: the convention of log 10. -/
def tableElement (nbits w : Nat) : Option TableElement :=
  match nbits with
  | 0 => some (.storedHeader 0#16 0#16)
  | 8 =>
    let v := w % 32
    if v = 0 then some (.header 0#3)
    else if v = 2 then some (.header 2#3)
    else if v = 16 ∨ v = 17 ∨ v = 18 then some (.clSymbol v)
    else some (.dist v)
  | 16 =>
    let v := w % 32
    if 32 ≤ w ∧ w < 512 then
      if w < 288 then some (.litLen w) else none
    else if v = 4 ∨ v = 5 ∨ v = 6 ∨ v = 7 then some (.header (BitVec.ofNat 3 v))
    else if 18 ≤ v ∧ v ≤ 29 then some (.dist v)
    else if w < 512 then some (.litLen w)
    else none
  | 32 => some (.storedHeader (BitVec.ofNat 16 w) (BitVec.ofNat 16 (w / 65536)))
  | _ => none

/-- The tree a literal/length symbol is read from here: the fixed one where it has a code there (30_encoding.md R153). -/
def probeLitLenTree (sym : Nat) : Trie := if sym < 286 then fixedLitLen else .single sym

/-- The tree a distance symbol is read from here (30_encoding.md R154). -/
def probeDistTree (sym : Nat) : Trie := if sym < 30 then fixedDist else .single sym

/-- The decoder's context for such an element. -/
def TableElement.context : TableElement → Context
  | .header _ => .header
  | .storedHeader _ _ => .storedHeader
  | .clSymbol sym => .clSymbol (.single sym) false
  | .litLen sym => .litLen (probeLitLenTree sym)
  | .dist sym => .dist (probeDistTree sym)

/-- Its bits in the stream, in fetch order. -/
def TableElement.bits : TableElement → List Bool
  | .header h => fieldBits h
  | .storedHeader len nlen => fieldBits len ++ fieldBits nlen
  | .clSymbol sym => ((Trie.single sym).codeOf sym).getD []
  | .litLen sym => ((probeLitLenTree sym).codeOf sym).getD []
  | .dist sym => ((probeDistTree sym).codeOf sym).getD []

/-- The bytes that hold it, every later bit 0 (room for any extra bits and for a distance element after a length). -/
def TableElement.bytes (e : TableElement) : List Byte :=
  packBits (e.bits ++ List.replicate 32 false)

/-- The element the decoder reads from a number of spec/opcode_table.json. -/
def decodeTableWord (nbits w : Nat) : Option Instr :=
  match tableElement nbits w with
  | none => none
  | some e =>
    match decodeElement e.context e.bytes (BitReader.fresh 0#8) with
    | .ok (.ok i) _ => some i
    | _ => none

end Sys2Proof
end

