-- ==== Sys2Proof/Machine/Crc.lean ====
section
/-! DEFINITION. Crc32Accumulator (spec/42_crc32.md): the ROM CRC_T and addByte. -/

namespace Sys2Proof.Machine

/-- One bit step of the reflected CRC (42_crc32.md R220). -/
def crcBitStep (c : Word) : Word :=
  if c.getLsbD 0 then Config.crcPoly ^^^ (c >>> 1) else c >>> 1

/-- Eight bit steps. -/
def crcEightSteps (c : Word) : Word :=
  crcBitStep (crcBitStep (crcBitStep (crcBitStep (crcBitStep (crcBitStep (crcBitStep (crcBitStep c)))))))

/-- CRC_T, the 256-entry ROM, read at an index (42_crc32.md R220). -/
def crcT (n : BitVec 8) : Word := crcEightSteps (n.setWidth 32)

/-- addByte (42_crc32.md R221): the new CRC_R. -/
def crcAddByte (crc : Word) (b : Byte) : Word :=
  let c := crc ^^^ 0xFFFFFFFF#32
  let c := crcT ((c ^^^ b.setWidth 32).setWidth 8) ^^^ (c >>> 8)
  c ^^^ 0xFFFFFFFF#32

/-- The table-free form of addByte (42_crc32.md R226). -/
def crcAddByteBitwise (crc : Word) (b : Byte) : Word :=
  crcEightSteps ((crc ^^^ 0xFFFFFFFF#32) ^^^ b.setWidth 32) ^^^ 0xFFFFFFFF#32

/-- The CRC-32 of a byte sequence, from the reset value 0 (42_crc32.md R223, R224). -/
def crcOf (bytes : List Byte) : Word := bytes.foldl crcAddByte 0#32

end Sys2Proof.Machine
end

