-- ==== Sys2Proof/Machine/Memory.lean ====
section
/-! DEFINITION. The window RAM WIN (10_state.md R43, 20_memory.md R102) as a list of (address, byte) pairs in one canonical
form: addresses strictly rising, below 32768, and no entry equal to what an unlisted address reads as. -/

namespace Sys2Proof.Machine

/-- A byte RAM: the listed cells; every other address reads as `Memory.unlisted`. -/
abbrev Memory := List Host.Cell

/-- What an unlisted address reads as. DESIGN CHOICE (log 2, unsafe): the spec leaves WIN's power-on contents
unspecified and lets no rule read them. -/
def Memory.unlisted : Byte := 0#8

/-- MemRead(WIN, a, 1) (00_scope.md R17). -/
def Memory.read : Memory → Nat → Byte
  | [], _ => Memory.unlisted
  | (a, b) :: m, x => if a = x then b else Memory.read m x

/-- A cell in front of a memory, left out when it equals an unlisted one. -/
def Memory.consCell (x : Nat) (v : Byte) (m : Memory) : Memory :=
  if v = Memory.unlisted then m else (x, v) :: m

/-- MemWrite(WIN, a, 1, v) (00_scope.md R17), keeping the canonical form. -/
def Memory.write : Memory → Nat → Byte → Memory
  | [], x, v => Memory.consCell x v []
  | (a, b) :: m, x, v =>
    if x < a then Memory.consCell x v ((a, b) :: m)
    else if x = a then Memory.consCell x v m
    else (a, b) :: Memory.write m x v

/-- The canonical form. -/
abbrev Memory.wf (m : Memory) : Prop :=
  m.Pairwise (fun c d => c.1 < d.1) ∧ ∀ c ∈ m, c.1 < Config.windowSize ∧ c.2 ≠ Memory.unlisted

/-- The RAM that a list of writes leaves; an index is reduced modulo 32768 first (20_memory.md R102). -/
def Memory.ofWrites (ws : List Host.Cell) : Memory :=
  ws.foldl (fun m c => m.write (c.1 % Config.windowSize) c.2) []

end Sys2Proof.Machine
end

