-- ==== Sys2Proof/Machine/State.lean ====
section
/-! DEFINITION. The state of the block (spec/10_state.md), the reasons a step can stop, and the state after power-on
(spec/70_reset_and_hazards.md R500, R501). -/

namespace Sys2Proof.Machine

/-- PHASE (10_state.md R32). -/
inductive Phase where
  | idle | hdr | storedHdr | storedCopy | dynHdr | dynCll | dynClBuild | dynLens | dynBuild | sym | done | failed
  deriving DecidableEq, Repr

/-- FAIL_KIND (10_state.md R33). -/
inductive FailKind where
  | none | streamExhausted | structuralViolation
  deriving DecidableEq, Repr

/-- FAIL_CAUSE (10_state.md R34, 60_exceptions.md R451). -/
inductive FailCause where
  | none | btypeReserved | storedNlenMismatch | hlitTooLarge | codeOversubscribed | clInvalidCode
  | clRepeatNoPrevious | clRepeatOverrun | litLenInvalidCode | litLenSymbolRange | distInvalidCode
  | distSymbolRange | invalidBackReference
  deriving DecidableEq, Repr

/-- The SlidingWindowSink with the CRC it feeds and the port it emits on (10_state.md R42 to R46, 44_window.md R279). -/
structure Sink where
  /-- WIN, the ring buffer. -/
  ram : Memory
  /-- WIN_WP, the index of the next byte to write. -/
  wp : BitVec 15
  /-- WIN_HELD, the number of bytes held, at most 32768. -/
  held : BitVec 16
  /-- WIN_TOTAL, the bytes appended since START modulo 2^32. -/
  total : BitVec 32
  /-- CRC_R, in finalized form. -/
  crc : BitVec 32
  /-- OUT, every byte emitted since power-on, oldest first. -/
  out : List Byte
  deriving DecidableEq, Repr

/-- The block's registers, RAMs, trees and launch parameters. -/
structure State where
  /-- PHASE. -/
  phase : Phase
  /-- FAIL_KIND. -/
  failKind : FailKind
  /-- FAIL_CAUSE. -/
  failCause : FailCause
  /-- BFINAL (R35). -/
  bfinal : Bool
  /-- BTYPE (R36). -/
  btype : BitVec 2
  /-- USE_FIXED (R37). -/
  useFixed : Bool
  /-- BR_BYTE, BR_CNT, BR_CONSUMED, BR_EXH (R38 to R41). -/
  br : BitReader
  /-- WIN, WIN_WP, WIN_HELD, WIN_TOTAL, CRC_R (R42 to R46) and OUT. -/
  sink : Sink
  /-- ST_LEN (R47). -/
  stLen : BitVec 16
  /-- ST_NLEN (R47). -/
  stNlen : BitVec 16
  /-- ST_REM (R48). -/
  stRem : BitVec 16
  /-- HLIT (R49). -/
  hlit : BitVec 5
  /-- HDIST (R49). -/
  hdist : BitVec 5
  /-- HCLEN (R49). -/
  hclen : BitVec 4
  /-- CL_LEN (R50). -/
  clLen : Vector (BitVec 3) 19
  /-- CL_IDX (R51). -/
  clIdx : BitVec 5
  /-- LENS (R52). -/
  lens : Vector (BitVec 4) 318
  /-- LENS_IDX (R53). -/
  lensIdx : BitVec 9
  /-- TREE_CL (R54). -/
  treeCl : Trie
  /-- TREE_LL (R54). -/
  treeLl : Trie
  /-- TREE_D (R54). -/
  treeD : Trie
  /-- IN, its length N (R57); none while unbound (70_reset_and_hazards.md R501). -/
  input : Option (List Byte)
  /-- MATCH_LEN, step-local (R55): some between a length code and its distance code, inside one SYM step (log 6). -/
  matchLen : Option Nat
  /-- The model's own counter of free-value draws (log 5); no register of the spec. -/
  freeDraws : Nat
  deriving DecidableEq, Repr

/-- Why the machine stops. -/
inductive Fault where
  /-- Raised by `step` in IDLE, DONE and FAILED: the block has no step there and waits for a host command
  (45_block_fsm.md R300, R310, R311). Safe: nothing happens. -/
  | noStep (p : Phase)
  /-- Raised by the meaning of a distance element where no length code is pending: the grammar has no such element
  (30_encoding.md R149, R150). No step reaches it. Safe: nothing happens. -/
  | noPendingLength
  deriving DecidableEq, Repr

/-- What the model gives no meaning. -/
inductive Refusal where
  /-- An instruction whose arm of `exec` is not written: none is left. Safe: nothing happens. -/
  | notModelled (mnemonic : String)
  /-- Raised by the START command for an input of 2^32 bytes or more, which the spec tells a model to refuse
  (00_scope.md R10). Safe: nothing happens. -/
  | launchTooLong
  deriving DecidableEq, Repr

/-- The sink after reset() (44_window.md R278), with WIN's contents and the bytes already emitted given. -/
def Sink.fresh (ram : Memory) (out : List Byte) : Sink :=
  { ram := ram, wp := 0, held := 0, total := 0, crc := 0, out := out }

/-- The state after power-on (70_reset_and_hazards.md R500, R501). The spec leaves BR_BYTE, WIN and LENS unspecified:
here they are zero (DESIGN CHOICE, logs 1, 2 and 3). -/
def State.reset : State where
  phase := .idle
  failKind := .none
  failCause := .none
  bfinal := false
  btype := 0
  useFixed := false
  br := BitReader.fresh 0
  sink := Sink.fresh [] []
  stLen := 0
  stNlen := 0
  stRem := 0
  hlit := 0
  hdist := 0
  hclen := 0
  clLen := Vector.replicate 19 0
  clIdx := 0
  lens := Vector.replicate 318 0
  lensIdx := 0
  treeCl := .empty
  treeLl := .empty
  treeD := .empty
  input := none
  matchLen := none
  freeDraws := 0

end Sys2Proof.Machine
end

