-- ==== Sys2Proof/Machine/Flags.lean ====
section
/-! DEFINITION. The status: the codes of PHASE, FAIL_KIND and FAIL_CAUSE, and the indications derived from PHASE. The block
has no condition codes (10_state.md R60). -/

namespace Sys2Proof.Machine

/-- The code of PHASE (10_state.md R32). -/
def Phase.code : Phase → BitVec 4
  | .idle => 0
  | .hdr => 1
  | .storedHdr => 2
  | .storedCopy => 3
  | .dynHdr => 4
  | .dynCll => 5
  | .dynClBuild => 6
  | .dynLens => 7
  | .dynBuild => 8
  | .sym => 9
  | .done => 10
  | .failed => 11

/-- The code of FAIL_KIND (10_state.md R33). -/
def FailKind.code : FailKind → BitVec 2
  | .none => 0
  | .streamExhausted => 1
  | .structuralViolation => 2

/-- The code of FAIL_CAUSE (60_exceptions.md R451). -/
def FailCause.code : FailCause → BitVec 4
  | .none => 0
  | .btypeReserved => 1
  | .storedNlenMismatch => 2
  | .hlitTooLarge => 3
  | .codeOversubscribed => 4
  | .clInvalidCode => 5
  | .clRepeatNoPrevious => 6
  | .clRepeatOverrun => 7
  | .litLenInvalidCode => 8
  | .litLenSymbolRange => 9
  | .distInvalidCode => 10
  | .distSymbolRange => 11
  | .invalidBackReference => 12

/-- The cause each rejection of the decoder is recorded with (60_exceptions.md R451). -/
def decodeErrorCause : DecodeError → FailCause
  | .clInvalidCode => .clInvalidCode
  | .litLenInvalidCode => .litLenInvalidCode
  | .litLenSymbolRange => .litLenSymbolRange
  | .distInvalidCode => .distInvalidCode
  | .distSymbolRange => .distSymbolRange

/-- PHASE is one of HDR to SYM: an attempt is live (49_host_interface.md R400). -/
def Phase.live : Phase → Bool
  | .idle | .done | .failed => false
  | _ => true

/-- STATUS (10_state.md R63): PHASE in bits 3:0, DONE in bit 4, FAILED in bit 5, FAIL_KIND in bits 7:6, FAIL_CAUSE in
bits 11:8, bits 31:12 zero. -/
def statusWord (s : State) : Word :=
  0#20 ++ s.failCause.code ++ s.failKind.code ++ BitVec.ofBool (s.phase = .failed) ++
    BitVec.ofBool (s.phase = .done) ++ s.phase.code

end Sys2Proof.Machine
end

