-- ==== Sys2Proof/Machine/Ops.lean ====
section
/-! DEFINITION. The shared operations of the meanings: failure entry, the end of a block, appending and copying bytes,
storing code lengths, and the choice of trees. -/

namespace Sys2Proof.Machine

/-- What a meaning answers. -/
abbrev Result := Host.Outcome State Fault Refusal

/-- The bytes of IN; none while unbound (log 14). -/
def State.inBytes (s : State) : List Byte := s.input.getD []

/-- N (10_state.md R57). -/
def State.inLength (s : State) : Nat := s.inBytes.length

/-- The BitReader's registers replaced. -/
def State.withReader (s : State) (r : BitReader) : State := { s with br := r }

/-- The sink's registers replaced. -/
def State.withSink (s : State) (k : Sink) : State := { s with sink := k }

/-- PHASE <- p (00_scope.md R19). -/
def State.toPhase (s : State) (p : Phase) : State := { s with phase := p }

/-- Free values for the BitReader's registers (60_exceptions.md R453). -/
def freeReader (draw : Nat) : BitReader where
  byte := Config.freeBits 8 .brByte draw
  cnt := Config.freeBits 4 .brCnt draw
  consumed := Config.freeBits 32 .brConsumed draw
  exh := Config.freeFlag .brExh draw

/-- Free values for the window and the CRC; what was emitted stays emitted (60_exceptions.md R453). -/
def freeSink (draw : Nat) (out : List Byte) : Sink where
  ram := Memory.ofWrites (Config.freeCells draw)
  wp := Config.freeBits 15 .wp draw
  held := Config.freeBits 16 .held draw
  total := Config.freeBits 32 .total draw
  crc := Config.freeBits 32 .crc draw
  out := out

/-- Free values for the LENS entries. -/
def freeLens (draw : Nat) : Vector (BitVec 4) 318 :=
  Vector.ofFn fun i => Config.freeBits 4 (.lens i.val) draw

/-- Free values for the CL_LEN entries. -/
def freeClLen (draw : Nat) : Vector (BitVec 3) 19 :=
  Vector.ofFn fun i => Config.freeBits 3 (.clLen i.val) draw

/-- raise Fail(kind, cause) (00_scope.md R18, 60_exceptions.md R452): the failure entry, the block's one exceptional event.
PHASE, FAIL_KIND and FAIL_CAUSE are written; every other register and RAM then holds any value (R453), so each takes a free
value. IN and N are launch parameters the block never writes, and OUT keeps what was emitted (log 4). -/
def raiseFail (kind : FailKind) (cause : FailCause) (s : State) : State where
  phase := .failed
  failKind := kind
  failCause := cause
  bfinal := Config.freeFlag .bfinal s.freeDraws
  btype := Config.freeBits 2 .btype s.freeDraws
  useFixed := Config.freeFlag .useFixed s.freeDraws
  br := freeReader s.freeDraws
  sink := freeSink s.freeDraws s.sink.out
  stLen := Config.freeBits 16 .stLen s.freeDraws
  stNlen := Config.freeBits 16 .stNlen s.freeDraws
  stRem := Config.freeBits 16 .stRem s.freeDraws
  hlit := Config.freeBits 5 .hlit s.freeDraws
  hdist := Config.freeBits 5 .hdist s.freeDraws
  hclen := Config.freeBits 4 .hclen s.freeDraws
  clLen := freeClLen s.freeDraws
  clIdx := Config.freeBits 5 .clIdx s.freeDraws
  lens := freeLens s.freeDraws
  lensIdx := Config.freeBits 9 .lensIdx s.freeDraws
  treeCl := Config.freeTree .treeCl s.freeDraws
  treeLl := Config.freeTree .treeLl s.freeDraws
  treeD := Config.freeTree .treeD s.freeDraws
  input := s.input
  matchLen := none
  freeDraws := s.freeDraws + 1

/-- raise Fail(StructuralViolation, cause). -/
def failStructural (cause : FailCause) (s : State) : State := raiseFail .structuralViolation cause s

/-- raise Fail(StreamExhausted, 0) (41_bitreader.md R201). -/
def failExhausted (s : State) : State := raiseFail .streamExhausted .none s

/-- endBlock (45_block_fsm.md R309). -/
def endBlock (s : State) : State := s.toPhase (if s.bfinal then .done else .hdr)

/-- appendByte (44_window.md R271): the byte enters WIN, the CRC, the counters and OUT. -/
def Sink.append (k : Sink) (b : Byte) : Sink where
  ram := k.ram.write k.wp.toNat b
  wp := k.wp + 1
  held := if k.held.toNat < Config.windowSize then k.held + 1 else k.held
  total := k.total + 1
  crc := crcAddByte k.crc b
  out := k.out ++ [b]

/-- The byte written `back + 1` appends ago (44_window.md R270, R275). -/
def Sink.byteBack (k : Sink) (back : Nat) : Byte :=
  k.ram.read (k.wp - BitVec.ofNat 15 (back + 1)).toNat

/-- The copy loop of repeatFragment, byte by byte (44_window.md R275). -/
def Sink.copy (back : Nat) : Nat → Sink → Sink
  | 0, k => k
  | n + 1, k => Sink.copy back n (k.append (k.byteBack back))

/-- repeatFragment (44_window.md R274, R275); none is INVALID_BACK_REFERENCE, found before any byte is copied. -/
def Sink.repeatFragment (k : Sink) (back len : Nat) : Option Sink :=
  if k.held.toNat ≤ back then none else some (k.copy back len)

/-- availableLength() (44_window.md R277). -/
def Sink.availableLength (k : Sink) : Nat := k.held.toNat

/-- appendByte as a change of the state. -/
def appendByte (b : Byte) (s : State) : State := s.withSink (s.sink.append b)

/-- CL_LEN[ORDER[CL_IDX]] <- v (46_dynamic_header.md R333, R334); an index ORDER does not have writes nothing (log 12). -/
def storeClLength (v : BitVec 3) (s : State) : Vector (BitVec 3) 19 :=
  match orderTable[s.clIdx.toNat]? with
  | some sym => s.clLen.setIfInBounds sym v
  | none => s.clLen

/-- LENS[i .. i+rep-1] <- v (46_dynamic_header.md R336); an entry past the last is not written (log 12). -/
def fillLens (v : BitVec 4) : Nat → Nat → Vector (BitVec 4) 318 → Vector (BitVec 4) 318
  | 0, _, lens => lens
  | rep + 1, i, lens => fillLens v rep (i + 1) (lens.setIfInBounds i v)

/-- The last part of DYN_LENS (46_dynamic_header.md R336, R342): the overrun check, the entries, LENS_IDX and PHASE. -/
def storeLengths (rep : Nat) (v : BitVec 4) (s : State) : Result :=
  if lensTotal s.hlit s.hdist < s.lensIdx.toNat + rep then .next (failStructural .clRepeatOverrun s)
  else
    .next { s with
      lens := fillLens v rep s.lensIdx.toNat s.lens
      lensIdx := s.lensIdx + BitVec.ofNat 9 rep
      phase := if s.lensIdx.toNat + rep = lensTotal s.hlit s.hdist then .dynBuild else s.phase }

/-- LENS[LENS_IDX - 1] (46_dynamic_header.md R345). -/
def previousLength (s : State) : BitVec 4 := (s.lens[s.lensIdx.toNat - 1]?).getD 0

/-- The literal/length tree the SYM step decodes with (47_symbols.md R360, 10_state.md R37). -/
def litLenTree (s : State) : Trie := if s.useFixed then fixedLitLen else s.treeLl

/-- The distance tree the SYM step decodes with. -/
def distTree (s : State) : Trie := if s.useFixed then fixedDist else s.treeD

/-- MATCH_LEN <- LBASE[s] + e (47_symbols.md R360, R363): the effect of a length code. -/
def setMatchLength (code e : Nat) (s : State) : Result :=
  .next { s with matchLen := some (matchLength code e) }

/-- BACK and repeatFragment(BACK, MATCH_LEN) (47_symbols.md R360, R374, R376): the effect of a distance code. -/
def copyMatch (code e : Nat) (s : State) : Result :=
  match s.matchLen with
  | none => .fault .noPendingLength
  | some len =>
    match s.sink.repeatFragment (backDistance code e) len with
    | none => .next (failStructural .invalidBackReference s)
    | some k => .next { s with sink := k, matchLen := none }

end Sys2Proof.Machine
end

