-- ==== Sys2Proof/Machine/BlockHeader.lean ====
section
/-! DEFINITION. The meanings of the block headers (45_block_fsm.md R301 to R305). The element's bits have been fetched. -/

namespace Sys2Proof.Machine

/-- BFINAL and BTYPE as the HDR step writes them (45_block_fsm.md R301). -/
def writeHeader (final : Bool) (btype : BitVec 2) (s : State) : State :=
  { s with bfinal := final, btype := btype }

/-- BTYPE 00 (45_block_fsm.md R302). -/
def execBlockStored (final : Bool) (s : State) : Result :=
  .next ((writeHeader final 0b00#2 s).toPhase .storedHdr)

/-- BTYPE 01 (45_block_fsm.md R303). -/
def execBlockFixed (final : Bool) (s : State) : Result :=
  .next { (writeHeader final 0b01#2 s).toPhase .sym with useFixed := true }

/-- BTYPE 10 (45_block_fsm.md R304). -/
def execBlockDynamic (final : Bool) (s : State) : Result :=
  .next ((writeHeader final 0b10#2 s).toPhase .dynHdr)

/-- BTYPE 11, reserved (45_block_fsm.md R305). -/
def execBlockReserved (final : Bool) (s : State) : Result :=
  .next (failStructural .btypeReserved (writeHeader final 0b11#2 s))

end Sys2Proof.Machine
end

