-- ==== Sys2Proof/Machine/Distance.lean ====
section
/-! DEFINITION. The meanings of the distance symbols (47_symbols.md R373 to R377): each ends the length/distance pair with
the copy. -/

namespace Sys2Proof.Machine

/-- Distance code 0 (47_symbols.md R374, R376). -/
def execDist0 (s : State) : Result := copyMatch 0 0 s

/-- Distance code 1 (47_symbols.md R374, R376). -/
def execDist1 (s : State) : Result := copyMatch 1 0 s

/-- Distance code 2 (47_symbols.md R374, R376). -/
def execDist2 (s : State) : Result := copyMatch 2 0 s

/-- Distance code 3 (47_symbols.md R374, R376). -/
def execDist3 (s : State) : Result := copyMatch 3 0 s

/-- Distance code 4 (47_symbols.md R374, R376). -/
def execDist4 (extra : BitVec 1) (s : State) : Result := copyMatch 4 extra.toNat s

/-- Distance code 5 (47_symbols.md R374, R376). -/
def execDist5 (extra : BitVec 1) (s : State) : Result := copyMatch 5 extra.toNat s

/-- Distance code 6 (47_symbols.md R374, R376). -/
def execDist6 (extra : BitVec 2) (s : State) : Result := copyMatch 6 extra.toNat s

/-- Distance code 7 (47_symbols.md R374, R376). -/
def execDist7 (extra : BitVec 2) (s : State) : Result := copyMatch 7 extra.toNat s

/-- Distance code 8 (47_symbols.md R374, R376). -/
def execDist8 (extra : BitVec 3) (s : State) : Result := copyMatch 8 extra.toNat s

/-- Distance code 9 (47_symbols.md R374, R376). -/
def execDist9 (extra : BitVec 3) (s : State) : Result := copyMatch 9 extra.toNat s

/-- Distance code 10 (47_symbols.md R374, R376). -/
def execDist10 (extra : BitVec 4) (s : State) : Result := copyMatch 10 extra.toNat s

/-- Distance code 11 (47_symbols.md R374, R376). -/
def execDist11 (extra : BitVec 4) (s : State) : Result := copyMatch 11 extra.toNat s

/-- Distance code 12 (47_symbols.md R374, R376). -/
def execDist12 (extra : BitVec 5) (s : State) : Result := copyMatch 12 extra.toNat s

/-- Distance code 13 (47_symbols.md R374, R376). -/
def execDist13 (extra : BitVec 5) (s : State) : Result := copyMatch 13 extra.toNat s

/-- Distance code 14 (47_symbols.md R374, R376). -/
def execDist14 (extra : BitVec 6) (s : State) : Result := copyMatch 14 extra.toNat s

/-- Distance code 15 (47_symbols.md R374, R376). -/
def execDist15 (extra : BitVec 6) (s : State) : Result := copyMatch 15 extra.toNat s

/-- Distance code 16 (47_symbols.md R374, R376). -/
def execDist16 (extra : BitVec 7) (s : State) : Result := copyMatch 16 extra.toNat s

/-- Distance code 17 (47_symbols.md R374, R376). -/
def execDist17 (extra : BitVec 7) (s : State) : Result := copyMatch 17 extra.toNat s

/-- Distance code 18 (47_symbols.md R374, R376). -/
def execDist18 (extra : BitVec 8) (s : State) : Result := copyMatch 18 extra.toNat s

/-- Distance code 19 (47_symbols.md R374, R376). -/
def execDist19 (extra : BitVec 8) (s : State) : Result := copyMatch 19 extra.toNat s

/-- Distance code 20 (47_symbols.md R374, R376). -/
def execDist20 (extra : BitVec 9) (s : State) : Result := copyMatch 20 extra.toNat s

/-- Distance code 21 (47_symbols.md R374, R376). -/
def execDist21 (extra : BitVec 9) (s : State) : Result := copyMatch 21 extra.toNat s

/-- Distance code 22 (47_symbols.md R374, R376). -/
def execDist22 (extra : BitVec 10) (s : State) : Result := copyMatch 22 extra.toNat s

/-- Distance code 23 (47_symbols.md R374, R376). -/
def execDist23 (extra : BitVec 10) (s : State) : Result := copyMatch 23 extra.toNat s

/-- Distance code 24 (47_symbols.md R374, R376). -/
def execDist24 (extra : BitVec 11) (s : State) : Result := copyMatch 24 extra.toNat s

/-- Distance code 25 (47_symbols.md R374, R376). -/
def execDist25 (extra : BitVec 11) (s : State) : Result := copyMatch 25 extra.toNat s

/-- Distance code 26 (47_symbols.md R374, R376). -/
def execDist26 (extra : BitVec 12) (s : State) : Result := copyMatch 26 extra.toNat s

/-- Distance code 27 (47_symbols.md R374, R376). -/
def execDist27 (extra : BitVec 12) (s : State) : Result := copyMatch 27 extra.toNat s

/-- Distance code 28 (47_symbols.md R374, R376). -/
def execDist28 (extra : BitVec 13) (s : State) : Result := copyMatch 28 extra.toNat s

/-- Distance code 29 (47_symbols.md R374, R376). -/
def execDist29 (extra : BitVec 13) (s : State) : Result := copyMatch 29 extra.toNat s

/-- Distance symbol 30 (47_symbols.md R375). -/
def execDistInvalid30 (s : State) : Result := .next (failStructural .distSymbolRange s)

/-- Distance symbol 31 (47_symbols.md R375). -/
def execDistInvalid31 (s : State) : Result := .next (failStructural .distSymbolRange s)

end Sys2Proof.Machine
end

