-- ==== Sys2Proof/Machine/Dynamic.lean ====
section
/-! DEFINITION. The dynamic header: the meanings of its elements, and the two build steps that take no element
(46_dynamic_header.md). -/

namespace Sys2Proof.Machine

/-- DYN_HDR after its three fields (46_dynamic_header.md R330, R331). -/
def execDynHdr (hlit hdist : BitVec 5) (hclen : BitVec 4) (s : State) : Result :=
  let s1 := { s with hlit := hlit, hdist := hdist, hclen := hclen }
  if 286 < litLenCount hlit then .next (failStructural .hlitTooLarge s1)
  else .next { s1 with clLen := Vector.replicate 19 0, clIdx := 0, phase := .dynCll }

/-- DYN_CLL after its field (46_dynamic_header.md R333, R334). -/
def execClLength (len : BitVec 3) (s : State) : Result :=
  let s1 := { s with clLen := storeClLength len s, clIdx := s.clIdx + 1 }
  if s1.clIdx.toNat = codeLengthCount s.hclen then .next (s1.toPhase .dynClBuild) else .next s1

/-- DYN_CLBUILD (46_dynamic_header.md R335). -/
def stepClBuild (s : State) : State :=
  match build (s.clLen.toList.map BitVec.toNat) [] with
  | none => failStructural .codeOversubscribed s
  | some t => { s with treeCl := t, lensIdx := 0, phase := .dynLens }

/-- Code-length symbols 0 to 15 (46_dynamic_header.md R337). -/
def execClLen (len : BitVec 4) (s : State) : Result := storeLengths 1 len s

/-- Code-length symbol 16 (46_dynamic_header.md R338, R339, R345). -/
def execClRepPrev (extra : BitVec 2) (s : State) : Result :=
  if s.lensIdx = 0 then .next (failStructural .clRepeatNoPrevious s)
  else storeLengths (3 + extra.toNat) (previousLength s) s

/-- Code-length symbol 17 (46_dynamic_header.md R340). -/
def execClRepZeroShort (extra : BitVec 3) (s : State) : Result := storeLengths (3 + extra.toNat) 0 s

/-- Code-length symbol 18 (46_dynamic_header.md R341). -/
def execClRepZeroLong (extra : BitVec 7) (s : State) : Result := storeLengths (11 + extra.toNat) 0 s

/-- LENS[0 .. HLIT+256], the literal/length lengths (46_dynamic_header.md R344). -/
def litLenLengths (s : State) : List Nat :=
  (s.lens.toList.take (litLenCount s.hlit)).map BitVec.toNat

/-- LENS[HLIT+257 .. HLIT+HDIST+257], the distance lengths (46_dynamic_header.md R344). -/
def distLengths (s : State) : List Nat :=
  ((s.lens.toList.drop (litLenCount s.hlit)).take (distCount s.hdist)).map BitVec.toNat

/-- DYN_BUILD (46_dynamic_header.md R344): the literal/length tree first. -/
def stepBuild (s : State) : State :=
  match build (litLenLengths s) [] with
  | none => failStructural .codeOversubscribed s
  | some tll =>
    match build (distLengths s) [] with
    | none => failStructural .codeOversubscribed { s with treeLl := tll }
    | some td => { s with treeLl := tll, treeD := td, useFixed := false, phase := .sym }

end Sys2Proof.Machine
end

