-- ==== Sys2Proof/Machine/LitLen.lean ====
section
/-! DEFINITION. The meanings of the literal/length symbols (47_symbols.md R361 to R372). A length code leaves MATCH_LEN for
the distance element that follows it in the same SYM step (R373). -/

namespace Sys2Proof.Machine

/-- A literal (47_symbols.md R361). -/
def execLit (b : BitVec 8) (s : State) : Result := .next (appendByte b s)

/-- End of block (47_symbols.md R362). -/
def execEob (s : State) : Result := .next (endBlock s)

/-- Length code 257 (47_symbols.md R364). -/
def execLen257 (s : State) : Result := setMatchLength 257 0 s

/-- Length code 258 (47_symbols.md R364). -/
def execLen258 (s : State) : Result := setMatchLength 258 0 s

/-- Length code 259 (47_symbols.md R364). -/
def execLen259 (s : State) : Result := setMatchLength 259 0 s

/-- Length code 260 (47_symbols.md R364). -/
def execLen260 (s : State) : Result := setMatchLength 260 0 s

/-- Length code 261 (47_symbols.md R364). -/
def execLen261 (s : State) : Result := setMatchLength 261 0 s

/-- Length code 262 (47_symbols.md R364). -/
def execLen262 (s : State) : Result := setMatchLength 262 0 s

/-- Length code 263 (47_symbols.md R364). -/
def execLen263 (s : State) : Result := setMatchLength 263 0 s

/-- Length code 264 (47_symbols.md R364). -/
def execLen264 (s : State) : Result := setMatchLength 264 0 s

/-- Length code 265 (47_symbols.md R365). -/
def execLen265 (extra : BitVec 1) (s : State) : Result := setMatchLength 265 extra.toNat s

/-- Length code 266 (47_symbols.md R365). -/
def execLen266 (extra : BitVec 1) (s : State) : Result := setMatchLength 266 extra.toNat s

/-- Length code 267 (47_symbols.md R365). -/
def execLen267 (extra : BitVec 1) (s : State) : Result := setMatchLength 267 extra.toNat s

/-- Length code 268 (47_symbols.md R365). -/
def execLen268 (extra : BitVec 1) (s : State) : Result := setMatchLength 268 extra.toNat s

/-- Length code 269 (47_symbols.md R366). -/
def execLen269 (extra : BitVec 2) (s : State) : Result := setMatchLength 269 extra.toNat s

/-- Length code 270 (47_symbols.md R366). -/
def execLen270 (extra : BitVec 2) (s : State) : Result := setMatchLength 270 extra.toNat s

/-- Length code 271 (47_symbols.md R366). -/
def execLen271 (extra : BitVec 2) (s : State) : Result := setMatchLength 271 extra.toNat s

/-- Length code 272 (47_symbols.md R366). -/
def execLen272 (extra : BitVec 2) (s : State) : Result := setMatchLength 272 extra.toNat s

/-- Length code 273 (47_symbols.md R367). -/
def execLen273 (extra : BitVec 3) (s : State) : Result := setMatchLength 273 extra.toNat s

/-- Length code 274 (47_symbols.md R367). -/
def execLen274 (extra : BitVec 3) (s : State) : Result := setMatchLength 274 extra.toNat s

/-- Length code 275 (47_symbols.md R367). -/
def execLen275 (extra : BitVec 3) (s : State) : Result := setMatchLength 275 extra.toNat s

/-- Length code 276 (47_symbols.md R367). -/
def execLen276 (extra : BitVec 3) (s : State) : Result := setMatchLength 276 extra.toNat s

/-- Length code 277 (47_symbols.md R368). -/
def execLen277 (extra : BitVec 4) (s : State) : Result := setMatchLength 277 extra.toNat s

/-- Length code 278 (47_symbols.md R368). -/
def execLen278 (extra : BitVec 4) (s : State) : Result := setMatchLength 278 extra.toNat s

/-- Length code 279 (47_symbols.md R368). -/
def execLen279 (extra : BitVec 4) (s : State) : Result := setMatchLength 279 extra.toNat s

/-- Length code 280 (47_symbols.md R368). -/
def execLen280 (extra : BitVec 4) (s : State) : Result := setMatchLength 280 extra.toNat s

/-- Length code 281 (47_symbols.md R369). -/
def execLen281 (extra : BitVec 5) (s : State) : Result := setMatchLength 281 extra.toNat s

/-- Length code 282 (47_symbols.md R369). -/
def execLen282 (extra : BitVec 5) (s : State) : Result := setMatchLength 282 extra.toNat s

/-- Length code 283 (47_symbols.md R369). -/
def execLen283 (extra : BitVec 5) (s : State) : Result := setMatchLength 283 extra.toNat s

/-- Length code 284 (47_symbols.md R369). -/
def execLen284 (extra : BitVec 5) (s : State) : Result := setMatchLength 284 extra.toNat s

/-- Length code 285 (47_symbols.md R370). -/
def execLen285 (s : State) : Result := setMatchLength 285 0 s

/-- Literal/length symbol 286 (47_symbols.md R372). -/
def execLlInvalid286 (s : State) : Result := .next (failStructural .litLenSymbolRange s)

/-- Literal/length symbol 287 (47_symbols.md R372). -/
def execLlInvalid287 (s : State) : Result := .next (failStructural .litLenSymbolRange s)

end Sys2Proof.Machine
end

