-- ==== Sys2Proof/Machine/Stored.lean ====
section
/-! DEFINITION. The meanings of the stored block's elements (45_block_fsm.md R306 to R308, R314). -/

namespace Sys2Proof.Machine

/-- STORED_HDR after its fields (45_block_fsm.md R306, R307, R314). -/
def execStoredHdr (len nlen : BitVec 16) (s : State) : Result :=
  let s1 := { s with stLen := len, stNlen := nlen }
  if nlen ≠ ~~~len then .next (failStructural .storedNlenMismatch s1)
  else
    let s2 := { s1 with stRem := len }
    if len = 0 then .next (endBlock s2) else .next (s2.toPhase .storedCopy)

/-- STORED_COPY after its byte (45_block_fsm.md R308). -/
def execStoredByte (b : BitVec 8) (s : State) : Result :=
  let s1 := { appendByte b s with stRem := s.stRem - 1 }
  if s1.stRem = 0 then .next (endBlock s1) else .next s1

end Sys2Proof.Machine
end

