-- ==== Sys2Proof/Machine/Sequencer.lean ====
section
/-! DEFINITION. The step dispatch (45_block_fsm.md R300): what the phase expects, fetching and running one element, the
length/distance pair of one SYM step, and the two build steps. `step` itself is in Step.lean. -/

namespace Sys2Proof.Machine

/-- The element the block takes next (30_encoding.md R140, R158); none where the phase takes no element. With a length
pending, the next element is its distance (47_symbols.md R373). -/
def elementContext (s : State) : Option Context :=
  match s.phase with
  | .hdr => some .header
  | .storedHdr => some .storedHeader
  | .storedCopy => some .storedByte
  | .dynHdr => some .dynHeader
  | .dynCll => some .clLength
  | .dynLens => some (.clSymbol s.treeCl (s.lensIdx ≠ 0))
  | .sym => some (if s.matchLen.isSome then .dist (distTree s) else .litLen (litLenTree s))
  | .idle | .dynClBuild | .dynBuild | .done | .failed => none

/-- Fetch one element from IN and run it. Bits that end too early, and bits that are no element, fail the attempt with the
cause their names give (60_exceptions.md R451). -/
def runElement (c : Context) (s : State) : Result :=
  match decodeElement c s.inBytes s.br with
  | .ok (.ok i) r => exec i (s.withReader r)
  | .ok (.error e) r => .next (failStructural (decodeErrorCause e) (s.withReader r))
  | .exhausted r => .next (failExhausted (s.withReader r))

/-- After a length code, the same step goes on with its distance element (47_symbols.md R360, R378); after anything else it
is over. -/
def finishPair (o : Result) : Result :=
  match o with
  | .next s => if s.matchLen.isSome then runElement (.dist (distTree s)) s else .next s
  | .fault f => .fault f
  | .refused r => .refused r

/-- One step of the block (00_scope.md R20, 45_block_fsm.md R300). -/
def stepPhase (s : State) : Result :=
  match s.phase with
  | .dynClBuild => .next (stepClBuild s)
  | .dynBuild => .next (stepBuild s)
  | .sym =>
    if s.matchLen.isSome then runElement (.dist (distTree s)) s
    else finishPair (runElement (.litLen (litLenTree s)) s)
  | p =>
    match elementContext s with
    | some c => runElement c s
    | none => .fault (.noStep p)

/-- The state whose next element is the given one: IN holds its bits and nothing before them, the reader is fresh, and PHASE
(with the tree or the pending length that the element needs) is the one that reads it. -/
def placeElement (e : TableElement) (s : State) : State :=
  let s1 := { s with input := some e.bytes, br := BitReader.fresh s.br.byte, matchLen := none }
  match e with
  | .header _ => s1.toPhase .hdr
  | .storedHeader _ _ => s1.toPhase .storedHdr
  | .clSymbol sym => { s1.toPhase .dynLens with treeCl := .single sym }
  | .litLen sym =>
    if sym < 286 then { s1.toPhase .sym with useFixed := true }
    else { s1.toPhase .sym with useFixed := false, treeLl := .single sym }
  | .dist sym =>
    if sym < 30 then { s1.toPhase .sym with useFixed := true, matchLen := some 3 }
    else { s1.toPhase .sym with useFixed := false, treeD := .single sym, matchLen := some 3 }

/-- `k` steps at most, stopping where `stp` takes none. -/
def runSteps (stp : State → Result) : Nat → State → State
  | 0, s => s
  | k + 1, s =>
    match stp s with
    | .next t => runSteps stp k t
    | .fault _ => s
    | .refused _ => s

end Sys2Proof.Machine
end

