-- ==== Sys2Proof/Machine/Step.lean ====
section
/-! DEFINITION. The step of the machine, and the placing of an instruction where the next step fetches it. -/

namespace Sys2Proof.Machine

/-- One step of the block (00_scope.md R20, 45_block_fsm.md R300). -/
def step (s : State) : Host.Outcome State Fault Refusal := stepPhase s

/-- The state whose next step runs the element that spec/opcode_table.json numbers `w` in `nbits` bits (log 9, log 10); a
number that names no row changes nothing. -/
def State.withFetchWord (s : State) (nbits w : Nat) : State :=
  match tableElement nbits w with
  | some e => placeElement e s
  | none => s

end Sys2Proof.Machine
end

