-- ==== Sys2Proof/Machine/HostPort.lean ====
section
/-! DEFINITION. The host's side of the block (49_host_interface.md R400 to R409, 10_state.md R63, R64): the commands RESET
and START, the register reads and writes, and one whole attempt. The host acts between steps only (20_memory.md R114). -/

namespace Sys2Proof.Machine

/-- The assignments RESET and START share (49_host_interface.md R401): every register with a reset value takes it, BR_BYTE
takes a free value. WIN and LENS are as they were. -/
def clearAttempt (s : State) : State :=
  { State.reset with
    br := BitReader.fresh (Config.freeBits 8 .brByte s.freeDraws)
    sink := Sink.fresh s.sink.ram s.sink.out
    lens := s.lens
    freeDraws := s.freeDraws + 1 }

/-- RESET (49_host_interface.md R401): the contents of WIN and LENS are unspecified after it, so they are free values
(log 7); IN is unbound. -/
def resetCommand (s : State) : State :=
  { clearAttempt s with
    sink := Sink.fresh (Memory.ofWrites (Config.freeCells s.freeDraws)) s.sink.out
    lens := freeLens s.freeDraws }

/-- START (49_host_interface.md R402, 70_reset_and_hazards.md R501, R502), from any phase; a launch of 2^32 bytes or more is
refused (00_scope.md R10). -/
def startCommand (launch : List Byte) (s : State) : Result :=
  if Config.inputLimit ≤ launch.length then .refused .launchTooLong
  else .next { clearAttempt s with input := some launch, phase := .hdr }

/-- A host write of a register at a word offset (10_state.md R63, 49_host_interface.md R401 to R403). `launch` is the IN
that the host has placed for a START; no other write uses it. -/
def hostWrite (offset : Nat) (value : Word) (launch : List Byte) (s : State) : Result :=
  if offset = 0 then
    if value.getLsbD 0 then .next (resetCommand s)
    else if value.getLsbD 1 then startCommand launch s
    else .next s
  else .next s

/-- A host read of a register at a word offset (10_state.md R63): no side effect (20_memory.md R115). -/
def hostRead (offset : Nat) (s : State) : Word :=
  if offset = 0x04 then statusWord s
  else if offset = 0x08 then bytesConsumed s.br
  else if offset = 0x0C then s.sink.total
  else if offset = 0x10 then s.sink.crc
  else 0#32

/-- The platform address of a register: REG_BASE is an open parameter (20_memory.md R116, log 20). -/
def registerAddress (offset : Nat) : Nat := Config.regBase + offset

/-- The result of an attempt as the host reads it (49_host_interface.md R405). -/
inductive AttemptResult where
  | valid (total crc consumed : Word)
  | invalid (kind : FailKind) (cause : FailCause)
  /-- The attempt has not ended. -/
  | live
  deriving DecidableEq, Repr

/-- Reading the result (49_host_interface.md R404, R405). -/
def attemptResult (s : State) : AttemptResult :=
  match s.phase with
  | .done => .valid s.sink.total s.sink.crc s.br.consumed
  | .failed => .invalid s.failKind s.failCause
  | _ => .live

/-- The step bound of a run over N bytes (45_block_fsm.md R317). -/
def stepBound (n : Nat) : Nat := 16 * n + 1

/-- START and then steps until none is taken (49_host_interface.md R408); the bound of R317 ends the loop. -/
def runAttempt (launch : List Byte) (s : State) : Result :=
  match startCommand launch s with
  | .next t => .next (runSteps step (stepBound launch.length) t)
  | o => o

end Sys2Proof.Machine
end

