-- ==== Sys2Proof/Machine/GzipMember.lean ====
section
/-! DEFINITION. The host model GzipMemberValidator (49_host_interface.md R410 to R429): host software around the block, not
hardware (00_scope.md R4). H is the host buffer, p the offset of a magic sequence, q the cursor. -/

namespace Sys2Proof.Machine

/-- A little-endian number of some bytes (20_memory.md R107). -/
def leNat : List Byte → Nat
  | [] => 0
  | b :: bs => b.toNat + 256 * leNat bs

/-- `n` bytes at the cursor and the cursor after them; none at the end of the buffer. -/
def takeBytes (h : List Byte) (q n : Nat) : Option (List Byte × Nat) :=
  if q + n ≤ h.length then some ((h.drop q).take n, q + n) else none

/-- The cursor after the next 0x00 byte (49_host_interface.md R417, R418). -/
def skipString (h : List Byte) (q : Nat) : Option Nat :=
  ((h.drop q).findIdx? (· = 0x00#8)).map (q + · + 1)

/-- FLG bits (49_host_interface.md R412). -/
def flagSet (flg : Byte) (i : Nat) : Bool := flg.getLsbD i

/-- The optional fields after OS, in order (49_host_interface.md R416 to R419). -/
def skipOptional (xlenBytes : Nat) (h : List Byte) (flg : Byte) (q : Nat) : Option Nat := do
  let q ← if flagSet flg 2 then do
      let (len, q) ← takeBytes h q xlenBytes
      let (_, q) ← takeBytes h q (leNat len)
      pure q
    else pure q
  let q ← if flagSet flg 3 then skipString h q else pure q
  let q ← if flagSet flg 4 then skipString h q else pure q
  if flagSet flg 1 then do
    let (_, q) ← takeBytes h q 2
    pure q
  else pure q

/-- The OS values that are known (49_host_interface.md R415). -/
def knownOs (os : Byte) : Bool := os.toNat ≤ 13 || os.toNat = 255

/-- Parsing the header from the byte after the magic (49_host_interface.md R410 to R420): the offset of the deflate stream,
or the failure kind (R427): an early end is StreamExhausted, a bad field StructuralViolation. XLEN_BYTES defaults to 2
(R416). -/
def parseHeader (h : List Byte) (p : Nat) (xlenBytes : Nat := Config.xlenBytesDefault) : Except FailKind Nat :=
  match takeBytes h (p + 2) 1 with
  | none => .error .streamExhausted
  | some (cm, q1) =>
    if leNat cm ≠ 8 then .error .structuralViolation
    else
      match takeBytes h q1 1 with
      | none => .error .streamExhausted
      | some (flgBytes, q2) =>
        let flg := BitVec.ofNat 8 (leNat flgBytes)
        if flg.toNat / 32 ≠ 0 then .error .structuralViolation
        else
          match takeBytes h q2 5 with
          | none => .error .streamExhausted
          | some (_, q3) =>
            match takeBytes h q3 1 with
            | none => .error .streamExhausted
            | some (os, q4) =>
              if knownOs (BitVec.ofNat 8 (leNat os)) = false then .error .structuralViolation
              else
                match skipOptional xlenBytes h flg q4 with
                | none => .error .streamExhausted
                | some q5 => if q5 < h.length then .ok q5 else .error .streamExhausted

/-- The verdict on a member (49_host_interface.md R410, R424, R427): `fault` is the kind of an invalid one. -/
structure MemberVerdict where
  headerValid : Bool
  fileValid : Bool
  length : Nat
  failure : FailKind
  deriving DecidableEq, Repr

/-- A member found invalid (49_host_interface.md R426). -/
def invalidMember (headerValid : Bool) (kind : FailKind) : MemberVerdict :=
  { headerValid := headerValid, fileValid := false, length := 0, failure := kind }

/-- The footer checks (49_host_interface.md R422 to R424) after an attempt that ended in DONE. -/
def checkFooter (h : List Byte) (p f : Nat) (total crc : Word) : MemberVerdict :=
  match takeBytes h f 8 with
  | none => invalidMember true .streamExhausted
  | some (footer, q) =>
    if leNat (footer.take 4) = crc.toNat ∧ leNat (footer.drop 4) = total.toNat then
      { headerValid := true, fileValid := true, length := q - p, failure := .none }
    else invalidMember true .structuralViolation

/-- validateMember (49_host_interface.md R410, R421), with the block it drives. A launch the block refuses is refused
(00_scope.md R10). XLEN_BYTES defaults to 2 (R416). -/
def validateMember (h : List Byte) (p : Nat) (blk : State) (xlenBytes : Nat := Config.xlenBytesDefault) :
    Except Refusal (MemberVerdict × State) :=
  match parseHeader h p xlenBytes with
  | .error kind => .ok (invalidMember false kind, blk)
  | .ok q =>
    match runAttempt (h.drop q) blk with
    | .refused r => .error r
    | .fault _ => .ok (invalidMember true .structuralViolation, blk)
    | .next t =>
      match attemptResult t with
      | .valid total crc consumed => .ok (checkFooter h p (q + consumed.toNat) total crc, t)
      | .invalid kind _ => .ok (invalidMember true kind, t)
      | .live => .ok (invalidMember true .none, t)

end Sys2Proof.Machine
end

