-- ==== Sys2Proof/Machine/Carver.lean ====
section
/-! DEFINITION. The host model Carver (49_host_interface.md R430 to R439): host software around the block, not hardware
(00_scope.md R4). The file system's answers are inputs of the model (93_implementation_defined.md item 34). -/

namespace Sys2Proof.Machine

/-- What the host gives a scan (49_host_interface.md R430, R436 to R438). -/
structure ScanConfig where
  /-- XLEN_BYTES, 2 unless the host says otherwise (R416). -/
  xlenBytes : Nat := Config.xlenBytesDefault
  /-- The thorough-mode flag, true unless the host says otherwise (R430). -/
  thorough : Bool := Config.thoroughDefault
  /-- OUT_EXT (R436), open in the spec. -/
  outExt : String
  /-- The host file can be opened and read (R438). -/
  readable : Bool
  /-- The output directory can be created (R437). -/
  dirCreatable : Bool
  /-- The names in the output directory that exist or cannot be created or written (R437, R438); a creation and a write
  that fails after it are not told apart (DESIGN CHOICE, log 26). -/
  blocked : List String
  deriving DecidableEq, Repr

/-- One Finding (49_host_interface.md R430). -/
structure Finding where
  offset : Nat
  headerValid : Bool
  fileValid : Bool
  deriving DecidableEq, Repr

/-- One artifact: its name in the output directory and its bytes (49_host_interface.md R425, R436). -/
structure Artifact where
  name : String
  bytes : List Byte
  deriving DecidableEq, Repr

/-- How a scan ends. The artifacts are those it has created by then, in order: nothing takes them back. -/
inductive ScanResult where
  | done (findings : List Finding) (artifacts : List Artifact)
  /-- A ResourceFailure: the scan aborts and no list of Findings is returned (49_host_interface.md R425, R438). The artifact
  that failed is not among these, not in part either (DESIGN CHOICE, log 26). -/
  | resourceFailure (artifacts : List Artifact)
  /-- The block refused a launch (00_scope.md R10). -/
  | refused (r : Refusal) (artifacts : List Artifact)
  deriving DecidableEq, Repr

/-- The artifacts in existence when a scan ends. -/
def ScanResult.artifacts : ScanResult → List Artifact
  | .done _ as => as
  | .resourceFailure as => as
  | .refused _ as => as

/-- A scan's ending seen from one occurrence earlier, which recorded `f` and created `created`. -/
def ScanResult.after (f : Finding) (created : List Artifact) : ScanResult → ScanResult
  | .done fs as => .done (f :: fs) (created ++ as)
  | .resourceFailure as => .resourceFailure (created ++ as)
  | .refused r as => .refused r (created ++ as)

/-- The name of the artifact of a member at an offset (49_host_interface.md R436). -/
def artifactName (cfg : ScanConfig) (i : Nat) : String := toString i ++ cfg.outExt

/-- The magic sequence stands at an offset (49_host_interface.md R431). -/
def magicAt (h : List Byte) (i : Nat) : Bool := h[i]? = some 0x1F#8 && h[i + 1]? = some 0x8B#8

/-- What a validated occurrence creates: the exact span of a valid member (49_host_interface.md R425), nothing for an
invalid one (R426). -/
def memberArtifact (cfg : ScanConfig) (h : List Byte) (i : Nat) (v : MemberVerdict) : List Artifact :=
  if v.fileValid then [{ name := artifactName cfg i, bytes := (h.drop i).take v.length }] else []

/-- Where the scan resumes after an occurrence (49_host_interface.md R433, R434). -/
def resumeAt (thorough : Bool) (i : Nat) (v : MemberVerdict) : Nat :=
  if v.fileValid && !thorough then i + v.length else i + 2

/-- The scan loop (49_host_interface.md R431); `fuel` bounds the positions still to look at. DESIGN CHOICE (log 26, unsafe): an
artifact whose creation or write fails leaves nothing, where the spec does not say whether a partial file stays. -/
def scanFrom (cfg : ScanConfig) (h : List Byte) : Nat → Nat → State → ScanResult
  | 0, _, _ => .done [] []
  | fuel + 1, i, blk =>
    if i + 1 < h.length then
      if magicAt h i then
        match validateMember h i blk cfg.xlenBytes with
        | .error r => .refused r []
        | .ok (v, blk') =>
          if v.fileValid && cfg.blocked.contains (artifactName cfg i) then .resourceFailure []
          else
            (scanFrom cfg h fuel (resumeAt cfg.thorough i v) blk').after
              { offset := i, headerValid := v.headerValid, fileValid := v.fileValid } (memberArtifact cfg h i v)
      else scanFrom cfg h fuel (i + 1) blk
    else .done [] []

/-- scan (49_host_interface.md R430 to R438). -/
def scan (cfg : ScanConfig) (h : List Byte) (blk : State) : ScanResult :=
  if cfg.readable && cfg.dirCreatable then scanFrom cfg h h.length 0 blk else .resourceFailure []

end Sys2Proof.Machine
end

