-- ==== Sys2Proof/Safety.lean ====
section
/-! DEFINITION. What a good state and a good run are, in the terms the statements use. -/

namespace Sys2Proof.Machine

/-- The BitReader between steps of an attempt that has not failed (10_state.md R39, R40, R57, 41_bitreader.md R208). -/
structure ReaderInv (s : State) : Prop where
  cnt_le : s.br.cnt.toNat ≤ 7
  not_exhausted : s.br.exh = false
  consumed_le : s.br.consumed.toNat ≤ s.inLength
  length_lt : s.inLength < Config.inputLimit
  bound_when_live : s.phase.live = true → s.input.isSome = true

/-- The sink after the bytes `o` were appended since START (44_window.md R270, R272, R273, 42_crc32.md R224). -/
structure Sink.Holds (k : Sink) (o : List Byte) : Prop where
  crc_eq : k.crc = crcOf o
  total_eq : k.total.toNat = o.length % 2 ^ 32
  held_eq : k.held.toNat = min o.length Config.windowSize
  wp_eq : k.wp.toNat = o.length % Config.windowSize
  window_eq : ∀ back < k.held.toNat, o[o.length - 1 - back]? = some (k.byteBack back)

/-- The sink holds the output of the attempt, the last part of all that OUT has emitted. -/
def SinkInv (k : Sink) : Prop := ∃ earlier o, k.out = earlier ++ o ∧ k.Holds o

/-- What each phase of a block relies on: HLIT is legal inside a dynamic header, and the counters have not reached the end
that would have left the phase (45_block_fsm.md R306, R308, 46_dynamic_header.md R330 to R344). -/
def HeaderInv (s : State) : Prop :=
  match s.phase with
  | .storedCopy => s.stRem ≠ 0
  | .dynCll => litLenCount s.hlit ≤ 286 ∧ s.clIdx.toNat < codeLengthCount s.hclen
  | .dynClBuild => litLenCount s.hlit ≤ 286
  | .dynLens => litLenCount s.hlit ≤ 286 ∧ s.lensIdx.toNat < lensTotal s.hlit s.hdist
  | .dynBuild => litLenCount s.hlit ≤ 286 ∧ s.lensIdx.toNat = lensTotal s.hlit s.hdist
  | _ => True

/-- FAIL_KIND and FAIL_CAUSE go together, and say NONE exactly outside FAILED (60_exceptions.md R451). -/
def StatusInv (s : State) : Prop :=
  if s.phase = .failed then
    (s.failKind = .streamExhausted ∧ s.failCause = .none) ∨
      (s.failKind = .structuralViolation ∧ s.failCause ≠ .none)
  else s.failKind = .none ∧ s.failCause = .none

/-- The invariant of the block at a step boundary. After FAILED nothing is said of the registers that then hold any value
(60_exceptions.md R453). -/
structure State.Inv (s : State) : Prop where
  ram_wf : Memory.wf s.sink.ram
  no_pending : s.matchLen = none
  status : StatusInv s
  reader : s.phase ≠ .failed → ReaderInv s
  sink : s.phase ≠ .failed → SinkInv s.sink
  header : s.phase ≠ .failed → HeaderInv s

/-- The states a run can meet: power-on, then steps and host writes in any order (49_host_interface.md R400, R408). -/
inductive Reachable : State → Prop where
  | powerOn : Reachable State.reset
  | step {s t : State} (h : Reachable s) (hs : step s = .next t) : Reachable t
  | write {s t : State} (offset : Nat) (value : Word) (launch : List Byte) (h : Reachable s)
      (hw : hostWrite offset value launch s = .next t) : Reachable t

/-- The attempt is over (45_block_fsm.md R313). -/
def State.finished (s : State) : Prop := s.phase = .done ∨ s.phase = .failed

/-- The block failed with this kind and cause, and nothing was emitted or changed in IN by it (60_exceptions.md R452,
R453). -/
structure FailedWith (kind : FailKind) (cause : FailCause) (s t : State) : Prop where
  phase_eq : t.phase = .failed
  kind_eq : t.failKind = kind
  cause_eq : t.failCause = cause
  out_eq : t.sink.out = s.sink.out
  input_eq : t.input = s.input

/-- The bits lead out of the tree: the walk of decode stays on internal nodes until the last of them, which has no child
(43_huffman.md R249, R250). -/
def Trie.leadsOut : List Bool → Trie → Bool
  | [], .absent => true
  | b :: bits, .node zero one => Trie.leadsOut bits (if b then one else zero)
  | _, _ => false

/-- The reader can deliver: not exhausted, between fetches, on an input the spec allows (10_state.md R39, R41, R57). -/
structure ReaderReady (inp : List Byte) (r : BitReader) : Prop where
  not_exhausted : r.exh = false
  cnt_le : r.cnt.toNat ≤ 7
  length_lt : inp.length < Config.inputLimit

/-- A length/distance pair is under way: in SYM the decoder reads the length code `i` and leaves the reader `r` before its
distance (47_symbols.md R360, R373, R378). -/
structure LengthRead (s : State) (i : Instr) (r : BitReader) : Prop where
  phase_eq : s.phase = .sym
  no_pending : s.matchLen = none
  ready : ReaderReady s.inBytes s.br
  length_lo : 257 ≤ i.symbol
  length_hi : i.symbol ≤ 285
  decoded : decodeElement (.litLen (litLenTree s)) s.inBytes s.br = .ok (.ok i) r

/-- The sink after one more byte (44_window.md R271), the CRC in its table-free form (42_crc32.md R226). -/
structure Sink.Appended (k : Sink) (b : Byte) (k' : Sink) : Prop where
  written : k'.ram.read k.wp.toNat = b
  others : ∀ a, a ≠ k.wp.toNat → k'.ram.read a = k.ram.read a
  wp_eq : k'.wp.toNat = (k.wp.toNat + 1) % Config.windowSize
  held_eq : k'.held.toNat = min (k.held.toNat + 1) Config.windowSize
  total_eq : k'.total.toNat = (k.total.toNat + 1) % 2 ^ 32
  crc_eq : k'.crc = crcAddByteBitwise k.crc b
  out_eq : k'.out = k.out ++ [b]

/-- The canonical code of a symbol of length `l`, computed without a running code: the codes the shorter lengths take up,
and the earlier symbols of the same length (43_huffman.md R254, the standard next_code). -/
def canonicalCode (lens : List Nat) (symbol l : Nat) : Nat :=
  ((lens.filter fun m => 0 < m ∧ m < l).map fun m => 2 ^ (l - m)).sum +
    ((lens.take symbol).filter fun m => m = l).length

/-- The Kraft sum of the lengths, in units of 2^-15 (43_huffman.md R242). -/
def kraftSum (lens : List Nat) : Nat :=
  ((lens.filter fun m => 0 < m).map fun m => 2 ^ (Config.maxCodeLength - m)).sum

end Sys2Proof.Machine
end

