-- ==== Sys2Proof/Certificates/Slice0/Obligations.lean ====
section
/-! DEFINITION. The statements for the provers. -/

open Sys2Proof Sys2Proof.Machine

/-! ### Reset, the host's commands, the registers -/

/-- 70_reset_and_hazards.md R500, R501, the values the spec gives for power-on: PHASE IDLE, every counter and flag 0, the
trees empty, IN unbound, STATUS and the other registers read 0. (BR_BYTE, WIN and LENS are the model's choice, logs 1 to 3,
and are not claimed.) -/
def Obligations.PowerOnValues : Prop :=
  let s := State.reset
  (s.phase = .idle ∧ s.failKind = .none ∧ s.failCause = .none ∧ s.bfinal = false ∧ s.btype = 0 ∧ s.useFixed = false) ∧
  (s.br.cnt = 0 ∧ s.br.consumed = 0 ∧ s.br.exh = false) ∧
  (s.sink.wp = 0 ∧ s.sink.held = 0 ∧ s.sink.total = 0 ∧ s.sink.crc = 0) ∧
  (s.stLen = 0 ∧ s.stNlen = 0 ∧ s.stRem = 0 ∧ s.hlit = 0 ∧ s.hdist = 0 ∧ s.hclen = 0 ∧ s.clIdx = 0 ∧ s.lensIdx = 0) ∧
  (∀ i : Fin 19, s.clLen[i] = 0) ∧ (s.treeCl = .empty ∧ s.treeLl = .empty ∧ s.treeD = .empty) ∧ s.input = none ∧
  (∀ offset, hostRead offset s = 0)

/-- The invariant holds at power-on. -/
def Obligations.PowerOnMeetsInvariant : Prop := State.reset.Inv

/-- Every step of the block keeps the invariant: WIN in canonical form and holding exactly the last bytes of the attempt's
output, CRC_R and WIN_TOTAL theirs, the reader between bytes and within IN, the header counters inside their phase, and
FAIL_KIND and FAIL_CAUSE telling of FAILED. -/
def Obligations.StepKeepsInvariant : Prop :=
  ∀ s t : State, s.Inv → step s = .next t → t.Inv

/-- Every host write keeps the invariant, START and RESET in a run among them (49_host_interface.md R401 to R403). -/
def Obligations.HostWriteKeepsInvariant : Prop :=
  ∀ (s t : State) (offset : Nat) (value : Word) (launch : List Byte), s.Inv →
    hostWrite offset value launch s = .next t → t.Inv

/-- 49_host_interface.md R402: START, in any phase, binds IN, gives every register its START value and enters HDR. BR_BYTE is
any value; WIN and LENS are as they were, and what was emitted stays emitted (70_reset_and_hazards.md R501). -/
def Obligations.StartBeginsFreshAttempt : Prop :=
  ∀ (s : State) (value : Word) (launch : List Byte), value.getLsbD 0 = false → value.getLsbD 1 = true →
    launch.length < 2 ^ 32 → ∃ t, hostWrite 0 value launch s = .next t ∧ t.phase = .hdr ∧ t.input = some launch ∧
      (t.failKind = .none ∧ t.failCause = .none ∧ t.bfinal = false ∧ t.btype = 0 ∧ t.useFixed = false) ∧
      (t.br.cnt = 0 ∧ t.br.consumed = 0 ∧ t.br.exh = false) ∧
      (t.sink.wp = 0 ∧ t.sink.held = 0 ∧ t.sink.total = 0 ∧ t.sink.crc = 0) ∧
      (t.sink.ram = s.sink.ram ∧ t.lens = s.lens ∧ t.sink.out = s.sink.out) ∧
      (t.stLen = 0 ∧ t.stNlen = 0 ∧ t.stRem = 0 ∧ t.hlit = 0 ∧ t.hdist = 0 ∧ t.hclen = 0 ∧ t.clIdx = 0 ∧
        t.lensIdx = 0) ∧
      (∀ i : Fin 19, t.clLen[i] = 0) ∧ (t.treeCl = .empty ∧ t.treeLl = .empty ∧ t.treeD = .empty) ∧
      hostRead 0x04 t = 0x00000001#32

/-- 49_host_interface.md R401: RESET, in any phase and even with bit 1 set, returns to IDLE, unbinds IN and gives every
register its reset value (BR_BYTE, WIN and LENS hold any value); with bits 1:0 = 00 a CTRL write has no effect. -/
def Obligations.ResetReturnsToIdle : Prop :=
  (∀ (s : State) (value : Word) (launch : List Byte), value.getLsbD 0 = true →
    ∃ t, hostWrite 0 value launch s = .next t ∧ t.phase = .idle ∧ t.input = none ∧
      (t.failKind = .none ∧ t.failCause = .none ∧ t.bfinal = false ∧ t.btype = 0 ∧ t.useFixed = false) ∧
      (t.br.cnt = 0 ∧ t.br.consumed = 0 ∧ t.br.exh = false) ∧
      (t.sink.wp = 0 ∧ t.sink.held = 0 ∧ t.sink.total = 0 ∧ t.sink.crc = 0 ∧ t.sink.out = s.sink.out) ∧
      (t.stLen = 0 ∧ t.stNlen = 0 ∧ t.stRem = 0 ∧ t.hlit = 0 ∧ t.hdist = 0 ∧ t.hclen = 0 ∧ t.clIdx = 0 ∧
        t.lensIdx = 0) ∧
      (∀ i : Fin 19, t.clLen[i] = 0) ∧ (t.treeCl = .empty ∧ t.treeLl = .empty ∧ t.treeD = .empty)) ∧
  (∀ (s : State) (value : Word) (launch : List Byte), value.getLsbD 0 = false → value.getLsbD 1 = false →
    hostWrite 0 value launch s = .next s)

/-- 00_scope.md R10: a launch of 2^32 bytes or more is refused, from any phase. -/
def Obligations.LongLaunchIsRefused : Prop :=
  ∀ (s : State) (value : Word) (launch : List Byte), value.getLsbD 0 = false → value.getLsbD 1 = true →
    2 ^ 32 ≤ launch.length → hostWrite 0 value launch s = .refused .launchTooLong

/-- 10_state.md R63: every field of every register, 0 at every other offset, and writes elsewhere than CTRL ignored. The
codes that STATUS shows are those of 10_state.md R32 and R33 and 60_exceptions.md R451. -/
def Obligations.RegisterMapReads : Prop :=
  (∀ s : State,
    (let w := hostRead 0x04 s
     w.extractLsb' 0 4 = s.phase.code ∧ w.getLsbD 4 = decide (s.phase = .done) ∧
       w.getLsbD 5 = decide (s.phase = .failed) ∧ w.extractLsb' 6 2 = s.failKind.code ∧
       w.extractLsb' 8 4 = s.failCause.code ∧ w.toNat < 2 ^ 12) ∧
    hostRead 0x08 s = s.br.consumed ∧ hostRead 0x0C s = s.sink.total ∧ hostRead 0x10 s = s.sink.crc ∧
    (∀ offset, offset ∉ [0x04, 0x08, 0x0C, 0x10] → hostRead offset s = 0) ∧
    (∀ offset value launch, offset ≠ 0 → hostWrite offset value launch s = .next s)) ∧
  (Phase.code .idle = 0 ∧ Phase.code .hdr = 1 ∧ Phase.code .storedHdr = 2 ∧ Phase.code .storedCopy = 3 ∧
    Phase.code .dynHdr = 4 ∧ Phase.code .dynCll = 5 ∧ Phase.code .dynClBuild = 6 ∧ Phase.code .dynLens = 7 ∧
    Phase.code .dynBuild = 8 ∧ Phase.code .sym = 9 ∧ Phase.code .done = 10 ∧ Phase.code .failed = 11) ∧
  (FailKind.code .none = 0 ∧ FailKind.code .streamExhausted = 1 ∧ FailKind.code .structuralViolation = 2) ∧
  (FailCause.code .none = 0 ∧ FailCause.code .btypeReserved = 1 ∧ FailCause.code .storedNlenMismatch = 2 ∧
    FailCause.code .hlitTooLarge = 3 ∧ FailCause.code .codeOversubscribed = 4 ∧ FailCause.code .clInvalidCode = 5 ∧
    FailCause.code .clRepeatNoPrevious = 6 ∧ FailCause.code .clRepeatOverrun = 7 ∧
    FailCause.code .litLenInvalidCode = 8 ∧ FailCause.code .litLenSymbolRange = 9 ∧
    FailCause.code .distInvalidCode = 10 ∧ FailCause.code .distSymbolRange = 11 ∧
    FailCause.code .invalidBackReference = 12)

/-! ### Steps and runs -/

/-- 45_block_fsm.md R300, 70_reset_and_hazards.md R512: while PHASE is HDR to SYM, every state has a step; no input, tree or
counter makes the machine stop. -/
def Obligations.LivePhaseAlwaysSteps : Prop :=
  ∀ s : State, s.phase.live = true → ∃ t, step s = .next t

/-- 45_block_fsm.md R300: in IDLE, DONE and FAILED the block has no step. -/
def Obligations.WaitingPhaseTakesNoStep : Prop :=
  ∀ s : State, (s.phase = .idle ∨ s.phase = .done ∨ s.phase = .failed) → step s = .fault (.noStep s.phase)

/-- 45_block_fsm.md R317, R313: from any state, START and at most 16N + 1 steps end in DONE or FAILED. -/
def Obligations.RunEndsWithinBound : Prop :=
  ∀ (s t : State) (launch : List Byte), startCommand launch s = .next t →
    (runSteps step (16 * launch.length + 1) t).finished

/-- 49_host_interface.md R409: two attempts on the same IN agree at every step, whatever ran before them and whatever WIN
and LENS then hold (WIN in its canonical form, as every run keeps it): in PHASE and the failure, in what they emit, and
(unless FAILED, where they hold any value) in CONSUMED, TOTAL and CRC. -/
def Obligations.AttemptIgnoresHistory : Prop :=
  ∀ (s1 s2 t1 t2 : State) (launch : List Byte) (n : Nat), Memory.wf s1.sink.ram → Memory.wf s2.sink.ram →
    startCommand launch s1 = .next t1 → startCommand launch s2 = .next t2 →
    let u1 := runSteps step n t1
    let u2 := runSteps step n t2
    u1.phase = u2.phase ∧ u1.failKind = u2.failKind ∧ u1.failCause = u2.failCause ∧
    (u1.phase ≠ .failed → hostRead 0x08 u1 = hostRead 0x08 u2 ∧ hostRead 0x0C u1 = hostRead 0x0C u2 ∧
      hostRead 0x10 u1 = hostRead 0x10 u2) ∧
    ∃ o, u1.sink.out = s1.sink.out ++ o ∧ u2.sink.out = s2.sink.out ++ o

/-- The step is the run of the element the decoder reads: outside SYM at once; in SYM with no length pending a literal, EOB
or illegal symbol at once, and after a length code the distance element that follows, in the same step (47_symbols.md R360,
R373, R378; the split at MATCH_LEN is the model's, log 6). -/
def Obligations.StepRunsDecodedElement : Prop :=
  (∀ (s : State) (c : Context) (i : Instr) (r : BitReader), s.phase ≠ .sym → elementContext s = some c →
    decodeElement c s.inBytes s.br = .ok (.ok i) r → step s = exec i (s.withReader r)) ∧
  (∀ (s : State) (i : Instr) (r : BitReader), s.phase = .sym → s.matchLen = none →
    decodeElement (.litLen (litLenTree s)) s.inBytes s.br = .ok (.ok i) r →
    (¬ (257 ≤ i.symbol ∧ i.symbol ≤ 285) → step s = exec i (s.withReader r)) ∧
    (∀ (j : Instr) (u : State) (q : BitReader), 257 ≤ i.symbol → i.symbol ≤ 285 → exec i (s.withReader r) = .next u →
      decodeElement (.dist (distTree u)) u.inBytes u.br = .ok (.ok j) q → step s = exec j (u.withReader q)))

/-- Bits that are no element fail the attempt with the cause of their tree, and bits that end too early with StreamExhausted
and cause 0; nothing is emitted (60_exceptions.md R451, 43_huffman.md R250, 41_bitreader.md R201). A code with no leaf gives
CL_INVALID_CODE in TREE_CL (46_dynamic_header.md R343), LITLEN_INVALID_CODE in the literal/length tree (47_symbols.md R371),
and in the distance tree, after any length code, DIST_INVALID_CODE (R377), the empty trees of 43_huffman.md R244 among them.
The other rejections, symbols outside the alphabets in trees no build makes, have the causes of log 13. -/
def Obligations.UndecodableBitsFailTheAttempt : Prop :=
  (∀ (s : State) (path rest : List Bool), ReaderReady s.inBytes s.br → upcoming s.inBytes s.br = path ++ rest →
    (s.phase = .dynLens → s.treeCl.leadsOut path = true → path ≠ [] →
      ∃ t, step s = .next t ∧ FailedWith .structuralViolation .clInvalidCode s t) ∧
    (s.phase = .sym → s.matchLen = none → (litLenTree s).leadsOut path = true → path ≠ [] →
      ∃ t, step s = .next t ∧ FailedWith .structuralViolation .litLenInvalidCode s t)) ∧
  (∀ (s : State) (i : Instr) (r : BitReader) (path rest : List Bool), LengthRead s i r →
    upcoming s.inBytes r = path ++ rest → (distTree s).leadsOut path = true → path ≠ [] →
      ∃ t, step s = .next t ∧ FailedWith .structuralViolation .distInvalidCode s t) ∧
  (∀ (s : State) (c : Context), elementContext s = some c →
    (∀ e r, decodeElement c s.inBytes s.br = .ok (.error e) r →
      ∃ t cause, step s = .next t ∧ FailedWith .structuralViolation cause s t ∧
        match c with
        | .clSymbol _ _ => cause = .clInvalidCode
        | .litLen _ => cause = .litLenInvalidCode ∨ cause = .litLenSymbolRange
        | .dist _ => cause = .distInvalidCode ∨ cause = .distSymbolRange
        | _ => False) ∧
    (∀ r, decodeElement c s.inBytes s.br = .exhausted r →
      ∃ t, step s = .next t ∧ FailedWith .streamExhausted .none s t)) ∧
  (∀ (s : State) (i : Instr) (r q : BitReader), LengthRead s i r →
    decodeElement (.dist (distTree s)) s.inBytes r = .exhausted q →
      ∃ t, step s = .next t ∧ FailedWith .streamExhausted .none s t)

/-- 60_exceptions.md R456, 41_bitreader.md R203, 47_symbols.md R378: an element that IN cuts short, at any of its bits, fails
the attempt with StreamExhausted and cause 0, whatever check the whole element would have failed; so does a distance element
cut short after its length code. -/
def Obligations.TruncatedElementExhausts : Prop :=
  (∀ (s : State) (c : Context) (i : Instr) (bits : List Bool), elementContext s = some c → ReaderReady s.inBytes s.br →
    encode c i = some bits → upcoming s.inBytes (c.entry s.br) <+: bits → upcoming s.inBytes (c.entry s.br) ≠ bits →
      ∃ t, step s = .next t ∧ FailedWith .streamExhausted .none s t) ∧
  (∀ (s : State) (i j : Instr) (r : BitReader) (bits : List Bool), LengthRead s i r →
    encode (.dist (distTree s)) j = some bits → upcoming s.inBytes r <+: bits → upcoming s.inBytes r ≠ bits →
      ∃ t, step s = .next t ∧ FailedWith .streamExhausted .none s t)

/-- 47_symbols.md R372, R375: a literal/length symbol of 286 or more fails the step with LITLEN_SYMBOL_RANGE, and after any
length code a distance symbol of 30 or more fails it with DIST_SYMBOL_RANGE, right after the symbol's code, whatever follows
it. A code-length symbol above 18, which no tree of the spec holds, fails with CL_INVALID_CODE (log 13). -/
def Obligations.OutOfRangeSymbolsFailTheStep : Prop :=
  (∀ (s : State) (symbol : Nat) (code rest : List Bool), ReaderReady s.inBytes s.br →
    upcoming s.inBytes s.br = code ++ rest →
    (s.phase = .sym → s.matchLen = none → (litLenTree s).codeOf symbol = some code → 286 ≤ symbol →
      ∃ t, step s = .next t ∧ FailedWith .structuralViolation .litLenSymbolRange s t) ∧
    (s.phase = .dynLens → s.treeCl.codeOf symbol = some code → 18 < symbol →
      ∃ t, step s = .next t ∧ FailedWith .structuralViolation .clInvalidCode s t)) ∧
  (∀ (s : State) (i : Instr) (r : BitReader) (symbol : Nat) (code rest : List Bool), LengthRead s i r →
    (distTree s).codeOf symbol = some code → 30 ≤ symbol → upcoming s.inBytes r = code ++ rest →
      ∃ t, step s = .next t ∧ FailedWith .structuralViolation .distSymbolRange s t)

/-- 60_exceptions.md R451, R454: a step that fails enters FAILED from a live phase with a kind and a cause that go together,
and emits nothing. -/
def Obligations.FailingStepRecordsCause : Prop :=
  ∀ s t : State, s.matchLen = none → step s = .next t → t.phase = .failed →
    s.phase.live = true ∧ StatusInv t ∧ t.sink.out = s.sink.out

/-- 45_block_fsm.md R309, R318: only the end of a final block leads to DONE: from a stored header, a stored byte or a symbol,
with BFINAL set. -/
def Obligations.DoneOnlyAfterFinalBlock : Prop :=
  ∀ s t : State, step s = .next t → t.phase = .done →
    (s.phase = .storedHdr ∨ s.phase = .storedCopy ∨ s.phase = .sym) ∧ s.bfinal = true ∧ t.bfinal = true

/-- 46_dynamic_header.md R347: from the block header to the first SYM step of a dynamic block nothing is emitted, and unless
the attempt fails no window or CRC register changes. -/
def Obligations.DynamicHeaderLeavesWindow : Prop :=
  ∀ s t : State, (s.phase = .hdr ∨ s.phase = .dynHdr ∨ s.phase = .dynCll ∨ s.phase = .dynClBuild ∨ s.phase = .dynLens ∨
      s.phase = .dynBuild) → step s = .next t →
    t.sink.out = s.sink.out ∧ (t.phase ≠ .failed → t.sink = s.sink)

/-- 10_state.md R61, 70_reset_and_hazards.md R505: no step writes IN, and unless it fails a step that takes an element moves
the stream position P = 8 * BR_CONSUMED - BR_CNT forward, a build step leaves it. -/
def Obligations.StreamPositionAdvances : Prop :=
  ∀ s t : State, ReaderReady s.inBytes s.br → step s = .next t →
    t.input = s.input ∧
    (t.phase ≠ .failed →
      (s.phase ≠ .dynClBuild → s.phase ≠ .dynBuild →
        8 * s.br.consumed.toNat + t.br.cnt.toNat < 8 * t.br.consumed.toNat + s.br.cnt.toNat) ∧
      ((s.phase = .dynClBuild ∨ s.phase = .dynBuild) → t.br = s.br))

/-- 44_window.md R279, 20_memory.md R119: what was emitted is never taken back, and one step emits at most 258 bytes. -/
def Obligations.OutputOnlyGrows : Prop :=
  ∀ s t : State, s.matchLen = none → step s = .next t →
    ∃ bytes, t.sink.out = s.sink.out ++ bytes ∧ bytes.length ≤ 258

/-! ### BitReader -/

/-- 41_bitreader.md R203, 20_memory.md R104: fetchBits(n) with n bits to come returns them, the first as bit 0, and leaves
the rest; P grows by n (10_state.md R61). -/
def Obligations.FieldsAreReadLsbFirst : Prop :=
  ∀ (n : Nat) (v : BitVec n) (inp : List Byte) (r : BitReader) (rest : List Bool), ReaderReady inp r →
    upcoming inp r = fieldBits v ++ rest →
    ∃ r', fetchBits inp n r = .ok v r' ∧ upcoming inp r' = rest ∧ ReaderReady inp r' ∧
      8 * r'.consumed.toNat + r.cnt.toNat = 8 * r.consumed.toNat + r'.cnt.toNat + n

/-- 41_bitreader.md R201, R203: fetchBits(n) with fewer than n bits to come fails, and sets BR_EXH. -/
def Obligations.ShortFetchExhausts : Prop :=
  ∀ (n : Nat) (inp : List Byte) (r : BitReader), ReaderReady inp r → (upcoming inp r).length < n →
    ∃ r', fetchBits inp n r = .exhausted r' ∧ r'.exh = true

/-- 41_bitreader.md R202, R204: once BR_EXH is set every fetchBits(n) with n >= 1 fails, bits left or not, and fetchBits(0)
still returns 0 and changes nothing. -/
def Obligations.ExhaustionIsPermanent : Prop :=
  ∀ (inp : List Byte) (r : BitReader),
    (∀ n, r.exh = true → 1 ≤ n → fetchBits inp n r = .exhausted r) ∧ fetchBits inp 0 r = .ok 0#0 r

/-- 41_bitreader.md R206, 20_memory.md R111: alignment drops exactly the bits left of the current byte, reads nothing, and
drops nothing when none is left. -/
def Obligations.AlignmentDropsPartialByte : Prop :=
  ∀ (inp : List Byte) (r : BitReader),
    upcoming inp (moveToByteBoundary r) = (inp.drop r.consumed.toNat).flatMap fieldBits ∧
    (moveToByteBoundary r).consumed = r.consumed ∧ (moveToByteBoundary r).exh = r.exh ∧
    (r.cnt = 0 → moveToByteBoundary r = r)

/-! ### CRC -/

/-- 42_crc32.md R226: the table-driven and the bitwise update agree on every CRC_R and byte. -/
def Obligations.CrcTableMatchesBitwiseForm : Prop :=
  ∀ (crc : Word) (b : Byte), crcAddByte crc b = crcAddByteBitwise crc b

/-! ### Huffman trees -/

/-- 43_huffman.md R241, R249, R251: a code placed in a tree decodes to its symbol, taking exactly its bits, most significant
first. -/
def Obligations.PlacedCodeDecodes : Prop :=
  ∀ (t t' : Trie) (symbol code len : Nat) (inp : List Byte) (r : BitReader) (rest : List Bool), 1 ≤ len →
    t.place symbol (codeBits code len) = some t' → ReaderReady inp r →
    upcoming inp r = codeBits code len ++ rest →
    ∃ r', decodeSymbol inp t' r = .ok (some symbol) r' ∧ upcoming inp r' = rest ∧ ReaderReady inp r'

/-- 43_huffman.md R242: place fails exactly when the walk meets a leaf before the code's end or a node at it; otherwise it
moves no leaf placed before. -/
def Obligations.PlaceFailsExactlyOnCollision : Prop :=
  ∀ (t : Trie) (symbol : Nat) (code : List Bool),
    (t.place symbol code = none ↔
      (∃ p q, p <+: code ∧ p ≠ code ∧ t.walk p = .leaf q) ∨ t.walk code ≠ .absent) ∧
    (∀ t' p q, t.place symbol code = some t' → t.walk p = .leaf q → t'.walk p = .leaf q)

/-- 43_huffman.md R243, R254: a tree that builds gives every symbol of non-zero length the canonical code of RFC1951's
next_code, and a symbol of length 0 no code. -/
def Obligations.BuildGivesCanonicalCodes : Prop :=
  ∀ (lens : List Nat) (t : Trie), build lens [] = some t →
    ∀ (symbol l : Nat), lens[symbol]? = some l →
      t.codeOf symbol = if l = 0 then none else some (codeBits (canonicalCode lens symbol l) l)

/-- 43_huffman.md R242: over lengths of at most 15, build fails exactly when their Kraft sum is above 1. -/
def Obligations.BuildFailsExactlyWhenOversubscribed : Prop :=
  ∀ lens : List Nat, (∀ l ∈ lens, l ≤ 15) → (build lens [] = none ↔ 2 ^ 15 < kraftSum lens)

/-- 43_huffman.md R244: all-zero lengths build the empty tree, and decode from it reads one bit and returns the sentinel. -/
def Obligations.EmptyTreeDecodesToSentinel : Prop :=
  (∀ (lens skip : List Nat), (∀ l ∈ lens, l = 0) → build lens skip = some .empty) ∧
  (∀ (inp : List Byte) (r : BitReader) (b : Bool) (rest : List Bool), ReaderReady inp r → upcoming inp r = b :: rest →
    ∃ r', decodeSymbol inp .empty r = .ok none r' ∧ upcoming inp r' = rest)

/-- 30_encoding.md R153, R154: the fixed codes of every symbol, no code for any other, and no leaf below the prefixes 1100011
and 1111. -/
def Obligations.FixedTreesHoldTheFixedCodes : Prop :=
  (∀ s, fixedLitLen.codeOf s =
    if s ≤ 143 then some (codeBits (0x30 + s) 8)
    else if s ≤ 255 then some (codeBits (0x190 + (s - 144)) 9)
    else if s ≤ 279 then some (codeBits (s - 256) 7)
    else if s ≤ 285 then some (codeBits (0xC0 + (s - 280)) 8)
    else none) ∧
  (∀ c, fixedDist.codeOf c = if c ≤ 29 then some (codeBits c 5) else none) ∧
  fixedLitLen.walk [true, true, false, false, false, true, true] = .absent ∧
  fixedDist.walk [true, true, true, true] = .absent

/-! ### Encoding -/

/-- Decode and encode agree for every element in every context that can hold it, with any operand, at any bit position: the
decoder reads the element back, takes exactly its bits, and leaves the rest (30_encoding.md R140 to R156, R167). -/
def Obligations.DecodeOfEncodeIsIdentity : Prop :=
  ∀ (c : Context) (i : Instr) (bits rest : List Bool) (inp : List Byte) (r : BitReader), ReaderReady inp r →
    encode c i = some bits → upcoming inp (c.entry r) = bits ++ rest →
    ∃ r', decodeElement c inp r = .ok (.ok i) r' ∧ upcoming inp r' = rest ∧ ReaderReady inp r'

/-- Every element can be encoded, in a context of its own format: the round trip speaks of all of them. -/
def Obligations.EveryElementHasAnEncoding : Prop :=
  ∀ i : Instr, ∃ c bits, c.format = i.format ∧ encode c i = some bits ∧ bits ≠ []

/-- Words of the spec's own programs P1, P2, P4, P6 and vectors W1, F4, written out bit by bit, decode to the elements they
are listed as (95_test_vectors.md). -/
def Obligations.SpecWordsDecode : Prop :=
  let r := BitReader.fresh 0
  (∃ q, decodeElement .header [0x4B#8] r = .ok (.ok (.blockFixed true)) q) ∧
  (∃ q, decodeElement .header [0x07#8] r = .ok (.ok (.blockReserved true)) q) ∧
  (∃ q, decodeElement .storedHeader [0x05#8, 0x00#8, 0xFA#8, 0xFF#8] r = .ok (.ok (.storedHdr 5#16 0xFFFA#16)) q) ∧
  (∃ q, decodeElement (.litLen fixedLitLen) (packBits [true, false, false, true, false, false, false, true]) r =
    .ok (.ok (.lit 0x61#8)) q) ∧
  (∃ q, decodeElement (.litLen fixedLitLen) (packBits [false, false, false, false, true, true, true]) r =
    .ok (.ok .len263) q) ∧
  (∃ q, decodeElement (.dist fixedDist) (packBits ([true, true, true, false, true] ++ List.replicate 13 true)) r =
    .ok (.ok (.dist29 8191#13)) q)

/-! ### Block headers and stored blocks -/

/-- 45_block_fsm.md R302, R303, R304: BLOCK_STORED, BLOCK_FIXED and BLOCK_DYNAMIC record BFINAL and BTYPE, select the phase
(and for a fixed block the ROM trees), and change nothing else. -/
def Obligations.BlockHeadersSelectThePhase : Prop :=
  ∀ (final : Bool) (s : State),
    exec (.blockStored final) s = .next { s with bfinal := final, btype := 0b00#2, phase := .storedHdr } ∧
    exec (.blockFixed final) s =
      .next { s with bfinal := final, btype := 0b01#2, phase := .sym, useFixed := true } ∧
    exec (.blockDynamic final) s = .next { s with bfinal := final, btype := 0b10#2, phase := .dynHdr } ∧
    (∀ t, exec (.blockFixed final) s = .next t → litLenTree t = fixedLitLen ∧ distTree t = fixedDist)

/-- 45_block_fsm.md R305: BLOCK_RESERVED fails the attempt with BTYPE_RESERVED, whatever BFINAL is. -/
def Obligations.ReservedBlockTypeFails : Prop :=
  ∀ (final : Bool) (s : State), ∃ t, exec (.blockReserved final) s = .next t ∧
    FailedWith .structuralViolation .btypeReserved s t

/-- 45_block_fsm.md R306, R307, R309, R314: STORED_HDR accepts NLEN = ~LEN and goes to STORED_COPY with LEN bytes to come, or
ends the block at once when LEN is 0; any other NLEN fails before a byte is copied. -/
def Obligations.StoredHeaderEffects : Prop :=
  ∀ (len nlen : BitVec 16) (s : State),
    (nlen = ~~~len → len ≠ 0 → exec (.storedHdr len nlen) s =
      .next { s with stLen := len, stNlen := nlen, stRem := len, phase := .storedCopy }) ∧
    (nlen = ~~~len → len = 0 → exec (.storedHdr len nlen) s =
      .next { s with stLen := len, stNlen := nlen, stRem := len, phase := if s.bfinal then .done else .hdr }) ∧
    (nlen ≠ ~~~len → ∃ t, exec (.storedHdr len nlen) s = .next t ∧
      FailedWith .structuralViolation .storedNlenMismatch s t)

/-- 45_block_fsm.md R308, 44_window.md R271: STORED_BYTE appends its byte (every other byte of WIN stays), counts ST_REM down
and ends the block at 0; nothing else changes. -/
def Obligations.StoredByteAppends : Prop :=
  ∀ (b : BitVec 8) (s : State), Memory.wf s.sink.ram → s.sink.held.toNat ≤ 32768 →
    ∃ k, s.sink.Appended b k ∧ exec (.storedByte b) s =
      .next { s with sink := k, stRem := s.stRem - 1, phase := if s.stRem = 1 then (if s.bfinal then .done else .hdr) else s.phase }

/-! ### Dynamic headers -/

/-- 46_dynamic_header.md R330, R331: DYN_HDR accepts HLIT up to 29, clears CL_LEN and enters DYN_CLL; HLIT 30 and 31 fail
with HLIT_TOO_LARGE; HDIST and HCLEN are never checked (R332). -/
def Obligations.DynamicHeaderEffects : Prop :=
  ∀ (hlit hdist : BitVec 5) (hclen : BitVec 4) (s : State),
    (hlit.toNat ≤ 29 → exec (.dynHdr hlit hdist hclen) s = .next { s with
      hlit := hlit, hdist := hdist, hclen := hclen, clLen := Vector.replicate 19 0, clIdx := 0, phase := .dynCll }) ∧
    (30 ≤ hlit.toNat → ∃ t, exec (.dynHdr hlit hdist hclen) s = .next t ∧
      FailedWith .structuralViolation .hlitTooLarge s t)

/-- 46_dynamic_header.md R333, R334: CL_LENGTH writes the length of symbol ORDER[CL_IDX] of the fixed permutation, counts
CL_IDX up, and after HCLEN + 4 fields goes to DYN_CLBUILD; nothing else changes. (In DYN_CLL, CL_IDX is below 19: the
invariant.) -/
def Obligations.CodeLengthFieldEffects : Prop :=
  orderTable = [16, 17, 18, 0, 8, 7, 9, 6, 10, 5, 11, 4, 12, 3, 13, 2, 14, 1, 15] ∧
  ∀ (v : BitVec 3) (s : State), s.clIdx.toNat < 19 →
    ∃ cl, (∀ k : Fin 19, cl[k] = if orderTable[s.clIdx.toNat]? = some k.val then v else s.clLen[k]) ∧
      exec (.clLength v) s = .next { s with
        clLen := cl, clIdx := s.clIdx + 1
        phase := if s.clIdx.toNat + 1 = s.hclen.toNat + 4 then .dynClBuild else s.phase }

/-- 46_dynamic_header.md R335: DYN_CLBUILD reads nothing and builds the code-length tree, or fails with
CODE_OVERSUBSCRIBED. -/
def Obligations.CodeLengthTreeIsBuilt : Prop :=
  ∀ s : State, s.phase = .dynClBuild →
    (∀ t, build (s.clLen.toList.map BitVec.toNat) [] = some t →
      step s = .next { s with treeCl := t, lensIdx := 0, phase := .dynLens }) ∧
    (build (s.clLen.toList.map BitVec.toNat) [] = none →
      ∃ t, step s = .next t ∧ FailedWith .structuralViolation .codeOversubscribed s t)

/-- 46_dynamic_header.md R336 to R341, R345: CL_LEN stores its length once; CL_REP_PREV repeats the last stored length 3 to
6 times, across the literal/length-distance boundary too, and fails with no previous length; CL_REP_ZERO_SHORT and
CL_REP_ZERO_LONG store 0 three to ten and eleven to 138 times; LENS_IDX and, at the last length, PHASE follow; nothing else
changes. -/
def Obligations.CodeLengthSymbolsStoreLengths : Prop :=
  ∀ (s : State), s.hlit.toNat ≤ 29 →
    let stores := fun (i : Instr) (rep : Nat) (v : BitVec 4) =>
      s.lensIdx.toNat + rep ≤ s.hlit.toNat + s.hdist.toNat + 258 →
      ∃ (lens : Vector (BitVec 4) 318) (idx : BitVec 9), idx.toNat = s.lensIdx.toNat + rep ∧
        (∀ k : Fin 318, lens[k] = if s.lensIdx.toNat ≤ k.val ∧ k.val < idx.toNat then v else s.lens[k]) ∧
        exec i s = .next { s with
          lens := lens, lensIdx := idx
          phase := if idx.toNat = s.hlit.toNat + s.hdist.toNat + 258 then .dynBuild else s.phase }
    (∀ len : BitVec 4, stores (.clLen len) 1 len) ∧
    (∀ (e : BitVec 2) (v : BitVec 4), s.lensIdx ≠ 0 → s.lens[s.lensIdx.toNat - 1]? = some v →
      stores (.clRepPrev e) (3 + e.toNat) v) ∧
    (∀ e : BitVec 2, s.lensIdx = 0 → ∃ t, exec (.clRepPrev e) s = .next t ∧
      FailedWith .structuralViolation .clRepeatNoPrevious s t) ∧
    (∀ e : BitVec 3, stores (.clRepZeroShort e) (3 + e.toNat) 0) ∧
    (∀ e : BitVec 7, stores (.clRepZeroLong e) (11 + e.toNat) 0)

/-- 46_dynamic_header.md R339: symbol 16 as the first length fails with CL_REPEAT_NO_PREVIOUS, whatever follows its code,
and even when nothing follows: the check comes before the extra bits. -/
def Obligations.RepeatWithNoPreviousFails : Prop :=
  ∀ (s : State) (code rest : List Bool), s.phase = .dynLens → s.lensIdx = 0 → ReaderReady s.inBytes s.br →
    s.treeCl.codeOf 16 = some code → upcoming s.inBytes s.br = code ++ rest →
    ∃ t, step s = .next t ∧ FailedWith .structuralViolation .clRepeatNoPrevious s t

/-- 46_dynamic_header.md R342: a repeat past HLIT + HDIST + 258 lengths fails with CL_REPEAT_OVERRUN. -/
def Obligations.RepeatOverrunFails : Prop :=
  ∀ s : State,
    let total := s.hlit.toNat + s.hdist.toNat + 258
    let overruns := fun (i : Instr) => ∃ t, exec i s = .next t ∧ FailedWith .structuralViolation .clRepeatOverrun s t
    (∀ e : BitVec 2, s.lensIdx ≠ 0 → total < s.lensIdx.toNat + (3 + e.toNat) → overruns (.clRepPrev e)) ∧
    (∀ e : BitVec 3, total < s.lensIdx.toNat + (3 + e.toNat) → overruns (.clRepZeroShort e)) ∧
    (∀ e : BitVec 7, total < s.lensIdx.toNat + (11 + e.toNat) → overruns (.clRepZeroLong e))

/-- 46_dynamic_header.md R344: DYN_BUILD reads nothing, splits LENS at HLIT + 257, builds both trees (the literal/length tree
first), selects them and enters SYM; lengths that over-subscribe either fail with CODE_OVERSUBSCRIBED. -/
def Obligations.BlockTreesAreBuilt : Prop :=
  ∀ s : State, s.phase = .dynBuild →
    let ll := (s.lens.toList.take (s.hlit.toNat + 257)).map BitVec.toNat
    let d := ((s.lens.toList.drop (s.hlit.toNat + 257)).take (s.hdist.toNat + 1)).map BitVec.toNat
    (∀ tll td, build ll [] = some tll → build d [] = some td →
      ∃ t, step s = .next t ∧ t = { s with treeLl := tll, treeD := td, useFixed := false, phase := .sym } ∧
        litLenTree t = tll ∧ distTree t = td) ∧
    ((build ll [] = none ∨ build d [] = none) →
      ∃ t, step s = .next t ∧ FailedWith .structuralViolation .codeOversubscribed s t)

/-! ### Symbols and copies -/

/-- 47_symbols.md R361: LIT appends its byte; every other byte of WIN and every other register stays. -/
def Obligations.LiteralAppends : Prop :=
  ∀ (b : BitVec 8) (s : State), Memory.wf s.sink.ram → s.sink.held.toNat ≤ 32768 →
    ∃ k, s.sink.Appended b k ∧ exec (.lit b) s = .next { s with sink := k }

/-- 47_symbols.md R362, 45_block_fsm.md R309: EOB ends the block: DONE after a final one, else the next header; nothing else
changes. -/
def Obligations.EndOfBlockSelectsThePhase : Prop :=
  ∀ s : State, (s.bfinal = true → exec .eob s = .next { s with phase := .done }) ∧
    (s.bfinal = false → exec .eob s = .next { s with phase := .hdr })

/-- 30_encoding.md R151, 47_symbols.md R363 to R370, R379: the match length of each of the 29 length codes and extra values;
nothing else changes. That the length is left pending for the distance element of the same step is the model's choice, not
the spec's (log 6): the spec has one SYM step for the pair (47_symbols.md R360). -/
def Obligations.LengthCodesGiveTheLengths : Prop :=
  ∀ s : State,
    let gives := fun (i : Instr) (n : Nat) => exec i s = .next { s with matchLen := some n }
    (gives .len257 3 ∧ gives .len258 4 ∧ gives .len259 5 ∧ gives .len260 6 ∧ gives .len261 7 ∧ gives .len262 8 ∧
      gives .len263 9 ∧ gives .len264 10 ∧ gives .len285 258) ∧
    (∀ e, gives (.len265 e) (11 + e.toNat) ∧ gives (.len266 e) (13 + e.toNat) ∧ gives (.len267 e) (15 + e.toNat) ∧
      gives (.len268 e) (17 + e.toNat)) ∧
    (∀ e, gives (.len269 e) (19 + e.toNat) ∧ gives (.len270 e) (23 + e.toNat) ∧ gives (.len271 e) (27 + e.toNat) ∧
      gives (.len272 e) (31 + e.toNat)) ∧
    (∀ e, gives (.len273 e) (35 + e.toNat) ∧ gives (.len274 e) (43 + e.toNat) ∧ gives (.len275 e) (51 + e.toNat) ∧
      gives (.len276 e) (59 + e.toNat)) ∧
    (∀ e, gives (.len277 e) (67 + e.toNat) ∧ gives (.len278 e) (83 + e.toNat) ∧ gives (.len279 e) (99 + e.toNat) ∧
      gives (.len280 e) (115 + e.toNat)) ∧
    (∀ e, gives (.len281 e) (131 + e.toNat) ∧ gives (.len282 e) (163 + e.toNat) ∧ gives (.len283 e) (195 + e.toNat) ∧
      gives (.len284 e) (227 + e.toNat))

/-- 47_symbols.md R372, R375: LL_INVALID_286 and LL_INVALID_287 fail with LITLEN_SYMBOL_RANGE, DIST_INVALID_30 and
DIST_INVALID_31 with DIST_SYMBOL_RANGE, in every state. -/
def Obligations.IllegalSymbolsFail : Prop :=
  ∀ s : State,
    (∀ i ∈ [Instr.llInvalid286, .llInvalid287],
      ∃ t, exec i s = .next t ∧ FailedWith .structuralViolation .litLenSymbolRange s t) ∧
    (∀ i ∈ [Instr.distInvalid30, .distInvalid31],
      ∃ t, exec i s = .next t ∧ FailedWith .structuralViolation .distSymbolRange s t)

/-- 30_encoding.md R152, 47_symbols.md R374: the back-distances of the 30 distance codes start at distance 1, follow one
another without gap, carry the extra bits of the formula, and end at 32768. -/
def Obligations.DistanceRangesAreContiguous : Prop :=
  (∀ c, c ≤ 29 → dext c = if c < 4 then 0 else c / 2 - 1) ∧ dbase 0 = 1 ∧
  (∀ c, c < 29 → dbase (c + 1) = dbase c + 2 ^ dext c) ∧ dbase 29 + 2 ^ dext 29 - 1 = 32768

/-- 47_symbols.md R374, R376, 44_window.md R274 to R276, R380: DIST_0 to DIST_29 after a length, when the distance is held.
The copy appends MATCH_LEN bytes, each the byte `d` before it in the output (so a copy longer than `d` repeats it), and the
window then holds the longer output. Every byte of WIN outside those written stays, and nothing else changes. -/
def Obligations.DistanceCodesCopy : Prop :=
  ∀ (i : Instr) (s : State) (o : List Byte) (len : Nat), i.format = .d → i.symbol ≤ 29 → s.matchLen = some len →
    Memory.wf s.sink.ram → s.sink.Holds o →
    let d := dbase i.symbol + i.extraValue
    d ≤ s.sink.held.toNat →
    ∃ (k : Sink) (copied : List Byte), exec i s = .next { s with sink := k, matchLen := none } ∧
      copied.length = len ∧ k.out = s.sink.out ++ copied ∧ k.Holds (o ++ copied) ∧
      (∀ j < len, (o ++ copied)[o.length + j]? = (o ++ copied)[o.length + j - d]?) ∧
      (∀ a, (∀ j < len, a ≠ (s.sink.wp.toNat + j) % 32768) → k.ram.read a = s.sink.ram.read a)

/-- 44_window.md R274, 47_symbols.md R376, R380: a distance beyond the bytes held fails with INVALID_BACK_REFERENCE, for every
distance code and every length, and nothing is copied. A distance element where no length is pending has no meaning in the
grammar (30_encoding.md R149, R150) and the model stops there (its choice, log 6). -/
def Obligations.DistanceTooFarBackFails : Prop :=
  ∀ (i : Instr) (s : State), i.format = .d → i.symbol ≤ 29 →
    (∀ len, s.matchLen = some len → s.sink.held.toNat < dbase i.symbol + i.extraValue →
      ∃ t, exec i s = .next t ∧ FailedWith .structuralViolation .invalidBackReference s t) ∧
    (s.matchLen = none → exec i s = .fault .noPendingLength)

/-- 47_symbols.md R371, R377, R378: in a fixed block the codes 1100011x fail with LITLEN_INVALID_CODE; and after a length code
(with its extra bits) the codes 1111x fail with DIST_INVALID_CODE in the same step. -/
def Obligations.FixedBlockInvalidCodesFail : Prop :=
  ∀ (s : State) (rest : List Bool), s.phase = .sym → s.useFixed = true → s.matchLen = none → ReaderReady s.inBytes s.br →
    (upcoming s.inBytes s.br = [true, true, false, false, false, true, true] ++ rest →
      ∃ t, step s = .next t ∧ FailedWith .structuralViolation .litLenInvalidCode s t) ∧
    (∀ (i : Instr) (bits : List Bool), 257 ≤ i.symbol → i.symbol ≤ 285 → encode (.litLen fixedLitLen) i = some bits →
      upcoming s.inBytes s.br = bits ++ [true, true, true, true] ++ rest →
      ∃ t, step s = .next t ∧ FailedWith .structuralViolation .distInvalidCode s t)

/-! ### The host models -/

/-- 49_host_interface.md R410 to R424: a member found file-valid is header-valid; its compression method is 8, the reserved
FLG bits are 0 and its OS byte is a known one; the whole header parses, with at least one byte after it, and the block's
attempt on the rest of the buffer ended in DONE; the member ends with eight bytes right after those the attempt consumed,
which are the CRC and the size (modulo 2^32) that the block holds. -/
def Obligations.ValidMemberPassedEveryCheck : Prop :=
  ∀ (xlenBytes : Nat) (h : List Byte) (p : Nat) (blk blk' : State) (v : MemberVerdict),
    validateMember h p blk xlenBytes = .ok (v, blk') → v.fileValid = true →
    v.headerValid = true ∧ h[p + 2]? = some 8#8 ∧
      (∃ flg, h[p + 3]? = some flg ∧ flg.extractLsb' 5 3 = 0) ∧
      (∃ os, h[p + 9]? = some os ∧ (os.toNat ≤ 13 ∨ os.toNat = 255)) ∧
      (∃ q, parseHeader h p xlenBytes = .ok q ∧ q < h.length ∧ runAttempt (h.drop q) blk = .next blk' ∧
        p + v.length = q + (hostRead 0x08 blk').toNat + 8) ∧
      blk'.phase = .done ∧ 8 ≤ v.length ∧ p + v.length ≤ h.length ∧
      leNat ((h.drop (p + v.length - 8)).take 4) = (hostRead 0x10 blk').toNat ∧
      leNat ((h.drop (p + v.length - 4)).take 4) = (hostRead 0x0C blk').toNat

/-- 49_host_interface.md R431, R434, R435: the Findings of a scan come in increasing offset order and each stands at a magic
sequence; a thorough scan has one for every magic sequence of the buffer. -/
def Obligations.FindingsAreTheOccurrences : Prop :=
  ∀ (cfg : ScanConfig) (h : List Byte) (blk : State) (fs : List Finding) (as : List Artifact),
    scan cfg h blk = .done fs as →
    fs.Pairwise (fun f g => f.offset < g.offset) ∧ (∀ f ∈ fs, magicAt h f.offset = true) ∧
    (cfg.thorough = true → ∀ i, magicAt h i = true → ∃ f ∈ fs, f.offset = i)

/-- 49_host_interface.md R425, R426, R436 to R438: however a scan ends, an aborted one among them, every artifact in existence
is the exact span of a member found valid, under the name of its offset, which was free; and a scan that ends normally has
exactly one for each file-valid Finding, in order. That an artifact whose write fails leaves no partial file is the model's
choice, not the spec's (log 26). -/
def Obligations.ArtifactsAreTheValidMembers : Prop :=
  ∀ (cfg : ScanConfig) (h : List Byte) (blk : State),
    (∀ a ∈ (scan cfg h blk).artifacts, ∃ i b v b', validateMember h i b cfg.xlenBytes = .ok (v, b') ∧
      v.fileValid = true ∧ a.name = toString i ++ cfg.outExt ∧ a.bytes = (h.drop i).take v.length ∧
      a.bytes.length = v.length ∧ a.name ∉ cfg.blocked) ∧
    (∀ fs as, scan cfg h blk = .done fs as →
      as.map Artifact.name = (fs.filter (·.fileValid)).map fun f => toString f.offset ++ cfg.outExt)
end

