-- ==== Sys2Proof/Laws/State.lean ====
section
/-! SUPPORT. The named updates of State, one lemma for each field: what was written, and what was left alone. -/

namespace Sys2Proof.Machine

/-! ### withReader -/

@[simp] theorem State.withReader_phase (s : State) (r : BitReader) : (s.withReader r).phase = s.phase := rfl
@[simp] theorem State.withReader_failKind (s : State) (r : BitReader) : (s.withReader r).failKind = s.failKind := rfl
@[simp] theorem State.withReader_failCause (s : State) (r : BitReader) : (s.withReader r).failCause = s.failCause := rfl
@[simp] theorem State.withReader_bfinal (s : State) (r : BitReader) : (s.withReader r).bfinal = s.bfinal := rfl
@[simp] theorem State.withReader_btype (s : State) (r : BitReader) : (s.withReader r).btype = s.btype := rfl
@[simp] theorem State.withReader_useFixed (s : State) (r : BitReader) : (s.withReader r).useFixed = s.useFixed := rfl
@[simp] theorem State.withReader_br (s : State) (r : BitReader) : (s.withReader r).br = r := rfl
@[simp] theorem State.withReader_sink (s : State) (r : BitReader) : (s.withReader r).sink = s.sink := rfl
@[simp] theorem State.withReader_stLen (s : State) (r : BitReader) : (s.withReader r).stLen = s.stLen := rfl
@[simp] theorem State.withReader_stNlen (s : State) (r : BitReader) : (s.withReader r).stNlen = s.stNlen := rfl
@[simp] theorem State.withReader_stRem (s : State) (r : BitReader) : (s.withReader r).stRem = s.stRem := rfl
@[simp] theorem State.withReader_hlit (s : State) (r : BitReader) : (s.withReader r).hlit = s.hlit := rfl
@[simp] theorem State.withReader_hdist (s : State) (r : BitReader) : (s.withReader r).hdist = s.hdist := rfl
@[simp] theorem State.withReader_hclen (s : State) (r : BitReader) : (s.withReader r).hclen = s.hclen := rfl
@[simp] theorem State.withReader_clLen (s : State) (r : BitReader) : (s.withReader r).clLen = s.clLen := rfl
@[simp] theorem State.withReader_clIdx (s : State) (r : BitReader) : (s.withReader r).clIdx = s.clIdx := rfl
@[simp] theorem State.withReader_lens (s : State) (r : BitReader) : (s.withReader r).lens = s.lens := rfl
@[simp] theorem State.withReader_lensIdx (s : State) (r : BitReader) : (s.withReader r).lensIdx = s.lensIdx := rfl
@[simp] theorem State.withReader_treeCl (s : State) (r : BitReader) : (s.withReader r).treeCl = s.treeCl := rfl
@[simp] theorem State.withReader_treeLl (s : State) (r : BitReader) : (s.withReader r).treeLl = s.treeLl := rfl
@[simp] theorem State.withReader_treeD (s : State) (r : BitReader) : (s.withReader r).treeD = s.treeD := rfl
@[simp] theorem State.withReader_input (s : State) (r : BitReader) : (s.withReader r).input = s.input := rfl
@[simp] theorem State.withReader_matchLen (s : State) (r : BitReader) : (s.withReader r).matchLen = s.matchLen := rfl
@[simp] theorem State.withReader_freeDraws (s : State) (r : BitReader) : (s.withReader r).freeDraws = s.freeDraws := rfl

/-! ### withSink -/

@[simp] theorem State.withSink_phase (s : State) (k : Sink) : (s.withSink k).phase = s.phase := rfl
@[simp] theorem State.withSink_failKind (s : State) (k : Sink) : (s.withSink k).failKind = s.failKind := rfl
@[simp] theorem State.withSink_failCause (s : State) (k : Sink) : (s.withSink k).failCause = s.failCause := rfl
@[simp] theorem State.withSink_bfinal (s : State) (k : Sink) : (s.withSink k).bfinal = s.bfinal := rfl
@[simp] theorem State.withSink_btype (s : State) (k : Sink) : (s.withSink k).btype = s.btype := rfl
@[simp] theorem State.withSink_useFixed (s : State) (k : Sink) : (s.withSink k).useFixed = s.useFixed := rfl
@[simp] theorem State.withSink_br (s : State) (k : Sink) : (s.withSink k).br = s.br := rfl
@[simp] theorem State.withSink_sink (s : State) (k : Sink) : (s.withSink k).sink = k := rfl
@[simp] theorem State.withSink_stLen (s : State) (k : Sink) : (s.withSink k).stLen = s.stLen := rfl
@[simp] theorem State.withSink_stNlen (s : State) (k : Sink) : (s.withSink k).stNlen = s.stNlen := rfl
@[simp] theorem State.withSink_stRem (s : State) (k : Sink) : (s.withSink k).stRem = s.stRem := rfl
@[simp] theorem State.withSink_hlit (s : State) (k : Sink) : (s.withSink k).hlit = s.hlit := rfl
@[simp] theorem State.withSink_hdist (s : State) (k : Sink) : (s.withSink k).hdist = s.hdist := rfl
@[simp] theorem State.withSink_hclen (s : State) (k : Sink) : (s.withSink k).hclen = s.hclen := rfl
@[simp] theorem State.withSink_clLen (s : State) (k : Sink) : (s.withSink k).clLen = s.clLen := rfl
@[simp] theorem State.withSink_clIdx (s : State) (k : Sink) : (s.withSink k).clIdx = s.clIdx := rfl
@[simp] theorem State.withSink_lens (s : State) (k : Sink) : (s.withSink k).lens = s.lens := rfl
@[simp] theorem State.withSink_lensIdx (s : State) (k : Sink) : (s.withSink k).lensIdx = s.lensIdx := rfl
@[simp] theorem State.withSink_treeCl (s : State) (k : Sink) : (s.withSink k).treeCl = s.treeCl := rfl
@[simp] theorem State.withSink_treeLl (s : State) (k : Sink) : (s.withSink k).treeLl = s.treeLl := rfl
@[simp] theorem State.withSink_treeD (s : State) (k : Sink) : (s.withSink k).treeD = s.treeD := rfl
@[simp] theorem State.withSink_input (s : State) (k : Sink) : (s.withSink k).input = s.input := rfl
@[simp] theorem State.withSink_matchLen (s : State) (k : Sink) : (s.withSink k).matchLen = s.matchLen := rfl
@[simp] theorem State.withSink_freeDraws (s : State) (k : Sink) : (s.withSink k).freeDraws = s.freeDraws := rfl

/-! ### toPhase -/

@[simp] theorem State.toPhase_phase (s : State) (p : Phase) : (s.toPhase p).phase = p := rfl
@[simp] theorem State.toPhase_failKind (s : State) (p : Phase) : (s.toPhase p).failKind = s.failKind := rfl
@[simp] theorem State.toPhase_failCause (s : State) (p : Phase) : (s.toPhase p).failCause = s.failCause := rfl
@[simp] theorem State.toPhase_bfinal (s : State) (p : Phase) : (s.toPhase p).bfinal = s.bfinal := rfl
@[simp] theorem State.toPhase_btype (s : State) (p : Phase) : (s.toPhase p).btype = s.btype := rfl
@[simp] theorem State.toPhase_useFixed (s : State) (p : Phase) : (s.toPhase p).useFixed = s.useFixed := rfl
@[simp] theorem State.toPhase_br (s : State) (p : Phase) : (s.toPhase p).br = s.br := rfl
@[simp] theorem State.toPhase_sink (s : State) (p : Phase) : (s.toPhase p).sink = s.sink := rfl
@[simp] theorem State.toPhase_stLen (s : State) (p : Phase) : (s.toPhase p).stLen = s.stLen := rfl
@[simp] theorem State.toPhase_stNlen (s : State) (p : Phase) : (s.toPhase p).stNlen = s.stNlen := rfl
@[simp] theorem State.toPhase_stRem (s : State) (p : Phase) : (s.toPhase p).stRem = s.stRem := rfl
@[simp] theorem State.toPhase_hlit (s : State) (p : Phase) : (s.toPhase p).hlit = s.hlit := rfl
@[simp] theorem State.toPhase_hdist (s : State) (p : Phase) : (s.toPhase p).hdist = s.hdist := rfl
@[simp] theorem State.toPhase_hclen (s : State) (p : Phase) : (s.toPhase p).hclen = s.hclen := rfl
@[simp] theorem State.toPhase_clLen (s : State) (p : Phase) : (s.toPhase p).clLen = s.clLen := rfl
@[simp] theorem State.toPhase_clIdx (s : State) (p : Phase) : (s.toPhase p).clIdx = s.clIdx := rfl
@[simp] theorem State.toPhase_lens (s : State) (p : Phase) : (s.toPhase p).lens = s.lens := rfl
@[simp] theorem State.toPhase_lensIdx (s : State) (p : Phase) : (s.toPhase p).lensIdx = s.lensIdx := rfl
@[simp] theorem State.toPhase_treeCl (s : State) (p : Phase) : (s.toPhase p).treeCl = s.treeCl := rfl
@[simp] theorem State.toPhase_treeLl (s : State) (p : Phase) : (s.toPhase p).treeLl = s.treeLl := rfl
@[simp] theorem State.toPhase_treeD (s : State) (p : Phase) : (s.toPhase p).treeD = s.treeD := rfl
@[simp] theorem State.toPhase_input (s : State) (p : Phase) : (s.toPhase p).input = s.input := rfl
@[simp] theorem State.toPhase_matchLen (s : State) (p : Phase) : (s.toPhase p).matchLen = s.matchLen := rfl
@[simp] theorem State.toPhase_freeDraws (s : State) (p : Phase) : (s.toPhase p).freeDraws = s.freeDraws := rfl

/-! ### endBlock -/

@[simp] theorem endBlock_phase (s : State) : (endBlock s).phase = if s.bfinal then .done else .hdr := rfl
@[simp] theorem endBlock_failKind (s : State) : (endBlock s).failKind = s.failKind := rfl
@[simp] theorem endBlock_failCause (s : State) : (endBlock s).failCause = s.failCause := rfl
@[simp] theorem endBlock_bfinal (s : State) : (endBlock s).bfinal = s.bfinal := rfl
@[simp] theorem endBlock_btype (s : State) : (endBlock s).btype = s.btype := rfl
@[simp] theorem endBlock_useFixed (s : State) : (endBlock s).useFixed = s.useFixed := rfl
@[simp] theorem endBlock_br (s : State) : (endBlock s).br = s.br := rfl
@[simp] theorem endBlock_sink (s : State) : (endBlock s).sink = s.sink := rfl
@[simp] theorem endBlock_stLen (s : State) : (endBlock s).stLen = s.stLen := rfl
@[simp] theorem endBlock_stNlen (s : State) : (endBlock s).stNlen = s.stNlen := rfl
@[simp] theorem endBlock_stRem (s : State) : (endBlock s).stRem = s.stRem := rfl
@[simp] theorem endBlock_hlit (s : State) : (endBlock s).hlit = s.hlit := rfl
@[simp] theorem endBlock_hdist (s : State) : (endBlock s).hdist = s.hdist := rfl
@[simp] theorem endBlock_hclen (s : State) : (endBlock s).hclen = s.hclen := rfl
@[simp] theorem endBlock_clLen (s : State) : (endBlock s).clLen = s.clLen := rfl
@[simp] theorem endBlock_clIdx (s : State) : (endBlock s).clIdx = s.clIdx := rfl
@[simp] theorem endBlock_lens (s : State) : (endBlock s).lens = s.lens := rfl
@[simp] theorem endBlock_lensIdx (s : State) : (endBlock s).lensIdx = s.lensIdx := rfl
@[simp] theorem endBlock_treeCl (s : State) : (endBlock s).treeCl = s.treeCl := rfl
@[simp] theorem endBlock_treeLl (s : State) : (endBlock s).treeLl = s.treeLl := rfl
@[simp] theorem endBlock_treeD (s : State) : (endBlock s).treeD = s.treeD := rfl
@[simp] theorem endBlock_input (s : State) : (endBlock s).input = s.input := rfl
@[simp] theorem endBlock_matchLen (s : State) : (endBlock s).matchLen = s.matchLen := rfl
@[simp] theorem endBlock_freeDraws (s : State) : (endBlock s).freeDraws = s.freeDraws := rfl

/-! ### appendByte -/

@[simp] theorem appendByte_phase (b : Byte) (s : State) : (appendByte b s).phase = s.phase := rfl
@[simp] theorem appendByte_failKind (b : Byte) (s : State) : (appendByte b s).failKind = s.failKind := rfl
@[simp] theorem appendByte_failCause (b : Byte) (s : State) : (appendByte b s).failCause = s.failCause := rfl
@[simp] theorem appendByte_bfinal (b : Byte) (s : State) : (appendByte b s).bfinal = s.bfinal := rfl
@[simp] theorem appendByte_btype (b : Byte) (s : State) : (appendByte b s).btype = s.btype := rfl
@[simp] theorem appendByte_useFixed (b : Byte) (s : State) : (appendByte b s).useFixed = s.useFixed := rfl
@[simp] theorem appendByte_br (b : Byte) (s : State) : (appendByte b s).br = s.br := rfl
@[simp] theorem appendByte_sink (b : Byte) (s : State) : (appendByte b s).sink = s.sink.append b := rfl
@[simp] theorem appendByte_stLen (b : Byte) (s : State) : (appendByte b s).stLen = s.stLen := rfl
@[simp] theorem appendByte_stNlen (b : Byte) (s : State) : (appendByte b s).stNlen = s.stNlen := rfl
@[simp] theorem appendByte_stRem (b : Byte) (s : State) : (appendByte b s).stRem = s.stRem := rfl
@[simp] theorem appendByte_hlit (b : Byte) (s : State) : (appendByte b s).hlit = s.hlit := rfl
@[simp] theorem appendByte_hdist (b : Byte) (s : State) : (appendByte b s).hdist = s.hdist := rfl
@[simp] theorem appendByte_hclen (b : Byte) (s : State) : (appendByte b s).hclen = s.hclen := rfl
@[simp] theorem appendByte_clLen (b : Byte) (s : State) : (appendByte b s).clLen = s.clLen := rfl
@[simp] theorem appendByte_clIdx (b : Byte) (s : State) : (appendByte b s).clIdx = s.clIdx := rfl
@[simp] theorem appendByte_lens (b : Byte) (s : State) : (appendByte b s).lens = s.lens := rfl
@[simp] theorem appendByte_lensIdx (b : Byte) (s : State) : (appendByte b s).lensIdx = s.lensIdx := rfl
@[simp] theorem appendByte_treeCl (b : Byte) (s : State) : (appendByte b s).treeCl = s.treeCl := rfl
@[simp] theorem appendByte_treeLl (b : Byte) (s : State) : (appendByte b s).treeLl = s.treeLl := rfl
@[simp] theorem appendByte_treeD (b : Byte) (s : State) : (appendByte b s).treeD = s.treeD := rfl
@[simp] theorem appendByte_input (b : Byte) (s : State) : (appendByte b s).input = s.input := rfl
@[simp] theorem appendByte_matchLen (b : Byte) (s : State) : (appendByte b s).matchLen = s.matchLen := rfl
@[simp] theorem appendByte_freeDraws (b : Byte) (s : State) : (appendByte b s).freeDraws = s.freeDraws := rfl

/-! ### writeHeader -/

@[simp] theorem writeHeader_phase (f : Bool) (t : BitVec 2) (s : State) : (writeHeader f t s).phase = s.phase := rfl
@[simp] theorem writeHeader_failKind (f : Bool) (t : BitVec 2) (s : State) : (writeHeader f t s).failKind = s.failKind := rfl
@[simp] theorem writeHeader_failCause (f : Bool) (t : BitVec 2) (s : State) : (writeHeader f t s).failCause = s.failCause := rfl
@[simp] theorem writeHeader_bfinal (f : Bool) (t : BitVec 2) (s : State) : (writeHeader f t s).bfinal = f := rfl
@[simp] theorem writeHeader_btype (f : Bool) (t : BitVec 2) (s : State) : (writeHeader f t s).btype = t := rfl
@[simp] theorem writeHeader_useFixed (f : Bool) (t : BitVec 2) (s : State) : (writeHeader f t s).useFixed = s.useFixed := rfl
@[simp] theorem writeHeader_br (f : Bool) (t : BitVec 2) (s : State) : (writeHeader f t s).br = s.br := rfl
@[simp] theorem writeHeader_sink (f : Bool) (t : BitVec 2) (s : State) : (writeHeader f t s).sink = s.sink := rfl
@[simp] theorem writeHeader_stLen (f : Bool) (t : BitVec 2) (s : State) : (writeHeader f t s).stLen = s.stLen := rfl
@[simp] theorem writeHeader_stNlen (f : Bool) (t : BitVec 2) (s : State) : (writeHeader f t s).stNlen = s.stNlen := rfl
@[simp] theorem writeHeader_stRem (f : Bool) (t : BitVec 2) (s : State) : (writeHeader f t s).stRem = s.stRem := rfl
@[simp] theorem writeHeader_hlit (f : Bool) (t : BitVec 2) (s : State) : (writeHeader f t s).hlit = s.hlit := rfl
@[simp] theorem writeHeader_hdist (f : Bool) (t : BitVec 2) (s : State) : (writeHeader f t s).hdist = s.hdist := rfl
@[simp] theorem writeHeader_hclen (f : Bool) (t : BitVec 2) (s : State) : (writeHeader f t s).hclen = s.hclen := rfl
@[simp] theorem writeHeader_clLen (f : Bool) (t : BitVec 2) (s : State) : (writeHeader f t s).clLen = s.clLen := rfl
@[simp] theorem writeHeader_clIdx (f : Bool) (t : BitVec 2) (s : State) : (writeHeader f t s).clIdx = s.clIdx := rfl
@[simp] theorem writeHeader_lens (f : Bool) (t : BitVec 2) (s : State) : (writeHeader f t s).lens = s.lens := rfl
@[simp] theorem writeHeader_lensIdx (f : Bool) (t : BitVec 2) (s : State) : (writeHeader f t s).lensIdx = s.lensIdx := rfl
@[simp] theorem writeHeader_treeCl (f : Bool) (t : BitVec 2) (s : State) : (writeHeader f t s).treeCl = s.treeCl := rfl
@[simp] theorem writeHeader_treeLl (f : Bool) (t : BitVec 2) (s : State) : (writeHeader f t s).treeLl = s.treeLl := rfl
@[simp] theorem writeHeader_treeD (f : Bool) (t : BitVec 2) (s : State) : (writeHeader f t s).treeD = s.treeD := rfl
@[simp] theorem writeHeader_input (f : Bool) (t : BitVec 2) (s : State) : (writeHeader f t s).input = s.input := rfl
@[simp] theorem writeHeader_matchLen (f : Bool) (t : BitVec 2) (s : State) : (writeHeader f t s).matchLen = s.matchLen := rfl
@[simp] theorem writeHeader_freeDraws (f : Bool) (t : BitVec 2) (s : State) : (writeHeader f t s).freeDraws = s.freeDraws := rfl

/-! ### raiseFail: what the spec defines after a failure, and what stays -/

@[simp] theorem raiseFail_phase (kind : FailKind) (cause : FailCause) (s : State) : (raiseFail kind cause s).phase = .failed := rfl
@[simp] theorem raiseFail_failKind (kind : FailKind) (cause : FailCause) (s : State) : (raiseFail kind cause s).failKind = kind := rfl
@[simp] theorem raiseFail_failCause (kind : FailKind) (cause : FailCause) (s : State) : (raiseFail kind cause s).failCause = cause := rfl
@[simp] theorem raiseFail_input (kind : FailKind) (cause : FailCause) (s : State) : (raiseFail kind cause s).input = s.input := rfl
@[simp] theorem raiseFail_matchLen (kind : FailKind) (cause : FailCause) (s : State) : (raiseFail kind cause s).matchLen = none := rfl
@[simp] theorem raiseFail_freeDraws (kind : FailKind) (cause : FailCause) (s : State) : (raiseFail kind cause s).freeDraws = s.freeDraws + 1 := rfl
@[simp] theorem raiseFail_out (kind : FailKind) (cause : FailCause) (s : State) : (raiseFail kind cause s).sink.out = s.sink.out := rfl
@[simp] theorem raiseFail_ram (kind : FailKind) (cause : FailCause) (s : State) : (raiseFail kind cause s).sink.ram = Memory.ofWrites (Config.freeCells s.freeDraws) := rfl

@[simp] theorem failStructural_phase (cause : FailCause) (s : State) : (failStructural cause s).phase = .failed := rfl
@[simp] theorem failStructural_failKind (cause : FailCause) (s : State) : (failStructural cause s).failKind = .structuralViolation := rfl
@[simp] theorem failStructural_failCause (cause : FailCause) (s : State) : (failStructural cause s).failCause = cause := rfl
@[simp] theorem failStructural_input (cause : FailCause) (s : State) : (failStructural cause s).input = s.input := rfl
@[simp] theorem failStructural_matchLen (cause : FailCause) (s : State) : (failStructural cause s).matchLen = none := rfl
@[simp] theorem failStructural_freeDraws (cause : FailCause) (s : State) : (failStructural cause s).freeDraws = s.freeDraws + 1 := rfl
@[simp] theorem failStructural_out (cause : FailCause) (s : State) : (failStructural cause s).sink.out = s.sink.out := rfl
@[simp] theorem failStructural_ram (cause : FailCause) (s : State) : (failStructural cause s).sink.ram = Memory.ofWrites (Config.freeCells s.freeDraws) := rfl

@[simp] theorem failExhausted_phase (s : State) : (failExhausted s).phase = .failed := rfl
@[simp] theorem failExhausted_failKind (s : State) : (failExhausted s).failKind = .streamExhausted := rfl
@[simp] theorem failExhausted_failCause (s : State) : (failExhausted s).failCause = .none := rfl
@[simp] theorem failExhausted_input (s : State) : (failExhausted s).input = s.input := rfl
@[simp] theorem failExhausted_matchLen (s : State) : (failExhausted s).matchLen = none := rfl
@[simp] theorem failExhausted_freeDraws (s : State) : (failExhausted s).freeDraws = s.freeDraws + 1 := rfl
@[simp] theorem failExhausted_out (s : State) : (failExhausted s).sink.out = s.sink.out := rfl
@[simp] theorem failExhausted_ram (s : State) : (failExhausted s).sink.ram = Memory.ofWrites (Config.freeCells s.freeDraws) := rfl

/-! ### The sink -/

@[simp] theorem Sink.append_ram (k : Sink) (b : Byte) : (k.append b).ram = k.ram.write k.wp.toNat b := rfl
@[simp] theorem Sink.append_wp (k : Sink) (b : Byte) : (k.append b).wp = k.wp + 1 := rfl
@[simp] theorem Sink.append_held (k : Sink) (b : Byte) :
    (k.append b).held = if k.held.toNat < Config.windowSize then k.held + 1 else k.held := rfl
@[simp] theorem Sink.append_total (k : Sink) (b : Byte) : (k.append b).total = k.total + 1 := rfl
@[simp] theorem Sink.append_crc (k : Sink) (b : Byte) : (k.append b).crc = crcAddByte k.crc b := rfl
@[simp] theorem Sink.append_out (k : Sink) (b : Byte) : (k.append b).out = k.out ++ [b] := rfl

/-! ### The reader -/

@[simp] theorem moveToByteBoundary_byte (r : BitReader) : (moveToByteBoundary r).byte = r.byte := rfl
@[simp] theorem moveToByteBoundary_cnt (r : BitReader) : (moveToByteBoundary r).cnt = 0 := rfl
@[simp] theorem moveToByteBoundary_consumed (r : BitReader) : (moveToByteBoundary r).consumed = r.consumed := rfl
@[simp] theorem moveToByteBoundary_exh (r : BitReader) : (moveToByteBoundary r).exh = r.exh := rfl

@[simp] theorem Fetched.andThen_ok {α β : Type} (v : α) (r : BitReader) (k : α → BitReader → Fetched β) :
    (Fetched.ok v r).andThen k = k v r := rfl
@[simp] theorem Fetched.andThen_exhausted {α β : Type} (r : BitReader) (k : α → BitReader → Fetched β) :
    (Fetched.exhausted r : Fetched α).andThen k = .exhausted r := rfl
@[simp] theorem Fetched.map_ok {α β : Type} (g : α → β) (v : α) (r : BitReader) :
    (Fetched.ok v r).map g = .ok (g v) r := rfl
@[simp] theorem Fetched.map_exhausted {α β : Type} (g : α → β) (r : BitReader) :
    (Fetched.exhausted r : Fetched α).map g = .exhausted r := rfl

/-- A sequence of fetches succeeds only through both. -/
theorem Fetched.andThen_eq_ok {α β : Type} {f : Fetched α} {k : α → BitReader → Fetched β} {v : β} {r : BitReader}
    (h : f.andThen k = .ok v r) : ∃ u r1, f = .ok u r1 ∧ k u r1 = .ok v r := by
  cases f with
  | ok u r1 => exact ⟨u, r1, rfl, h⟩
  | exhausted r1 => cases h

theorem Fetched.map_eq_ok {α β : Type} {f : Fetched α} {g : α → β} {v : β} {r : BitReader}
    (h : f.map g = .ok v r) : ∃ u, f = .ok u r ∧ g u = v := by
  cases f with
  | ok u r1 => cases h; exact ⟨u, rfl, rfl⟩
  | exhausted r1 => cases h

end Sys2Proof.Machine
end

