-- ==== Sys2Proof/Laws/BitReader.lean ====
section
/-! SUPPORT. The BitReader: what one fetch does to the bits still to come, and where it fails. -/

namespace Sys2Proof.Machine

@[simp] theorem fieldBits_zero (v : BitVec 0) : fieldBits v = [] := rfl

theorem fieldBits_succ {n : Nat} (v : BitVec (n + 1)) :
    fieldBits v = v.getLsbD 0 :: fieldBits (BitVec.extractLsb' 1 n v) := rfl

@[simp] theorem fieldBits_length {n : Nat} (v : BitVec n) : (fieldBits v).length = n := by
  induction n with
  | zero => rfl
  | succ n ih => simp [fieldBits_succ, ih]

/-- The first bit fetched is bit 0 of the value, the others are the value above it (20_memory.md R104). -/
theorem fieldBits_concat {n : Nat} (v : BitVec n) (b : Bool) : fieldBits (v.concat b) = b :: fieldBits v := by
  have h : BitVec.extractLsb' 1 n (v.concat b) = v := by
    apply BitVec.eq_of_getLsbD_eq
    intro i hi
    simp [hi, Nat.add_comm 1 i]
  rw [fieldBits_succ, h]
  simp

/-- A field is its bits put together (20_memory.md R104). -/
theorem fieldBits_injective {n : Nat} {v w : BitVec n} (h : fieldBits v = fieldBits w) : v = w := by
  induction n with
  | zero => exact Subsingleton.elim v w
  | succ n ih =>
    rw [fieldBits_succ, fieldBits_succ] at h
    obtain ⟨h0, ht⟩ := List.cons.inj h
    have ht := ih ht
    apply BitVec.eq_of_getLsbD_eq
    intro i hi
    cases i with
    | zero => exact h0
    | succ i =>
      have := congrArg (fun x => x.getLsbD i) ht
      simp only [BitVec.getLsbD_extractLsb'] at this
      simpa [show i < n by omega, Nat.add_comm 1 i] using this

/-- The partial byte's bits after one is delivered. -/
theorem fieldBits_take_shift (v : BitVec 8) (k : Nat) (h : k < 8) :
    (fieldBits v).take (k + 1) = v.getLsbD 0 :: (fieldBits (v >>> 1)).take k := by
  rw [fieldBits_succ, List.take_succ_cons]
  congr 1
  have hb : ∀ w : BitVec 8, fieldBits w = [w.getLsbD 0, w.getLsbD 1, w.getLsbD 2, w.getLsbD 3, w.getLsbD 4,
      w.getLsbD 5, w.getLsbD 6, w.getLsbD 7] := by
    intro w; simp [fieldBits]
  have hs : fieldBits (BitVec.extractLsb' 1 7 v) = (fieldBits (v >>> 1)).take 7 := by
    rw [hb (v >>> 1)]
    simp [fieldBits]
  rw [hs, List.take_take, Nat.min_eq_left (by omega)]

/-- takeBit delivers the first of the bits to come. -/
theorem upcoming_takeBit (inp : List Byte) (r : BitReader) (h0 : r.cnt ≠ 0) (h8 : r.cnt.toNat ≤ 8) :
    upcoming inp r = r.byte.getLsbD 0 ::
      upcoming inp { r with byte := r.byte >>> 1, cnt := r.cnt - 1 } := by
  have hpos : 0 < r.cnt.toNat := by
    rcases Nat.eq_zero_or_pos r.cnt.toNat with h | h
    · exact absurd (BitVec.eq_of_toNat_eq (by simpa using h)) h0
    · exact h
  have hc : (r.cnt - 1).toNat = r.cnt.toNat - 1 := by
    rw [BitVec.toNat_sub]; simp; omega
  unfold upcoming
  dsimp only
  rw [hc]
  conv_lhs => rw [show r.cnt.toNat = (r.cnt.toNat - 1) + 1 by omega]
  rw [fieldBits_take_shift _ _ (by omega)]
  rfl

/-- A refill changes no bit to come: it moves the next byte of IN into the partial byte. -/
theorem upcoming_refill {inp : List Byte} {r r' : BitReader} (h0 : r.cnt = 0) (hlen : inp.length < 2 ^ 32)
    (h : refill inp r = some r') : upcoming inp r' = upcoming inp r := by
  unfold refill at h
  split at h
  · next b hb =>
    cases h
    have hlt : r.consumed.toNat < inp.length := (List.getElem?_eq_some_iff.1 hb).1
    have hc : (r.consumed + 1).toNat = r.consumed.toNat + 1 := by
      rw [BitVec.toNat_add]; simp; omega
    simp only [upcoming, hc, h0]
    rw [List.drop_eq_getElem_cons hlt, (List.getElem?_eq_some_iff.1 hb).2]
    simp
  · cases h

/-- What fetchBit does while bits are left (41_bitreader.md R201): it delivers the first bit to come, and leaves 0 to 7
unconsumed bits. -/
theorem fetchBit_of_upcoming {inp : List Byte} {r : BitReader} {b : Bool} {rest : List Bool} (hx : r.exh = false)
    (hc : r.cnt.toNat ≤ 7) (hlen : inp.length < 2 ^ 32) (h : upcoming inp r = b :: rest) :
    ∃ r', fetchBit inp r = .ok b r' ∧ upcoming inp r' = rest ∧ r'.exh = false ∧ r'.cnt.toNat ≤ 7 := by
  have take : ∀ q : BitReader, q.exh = false → q.cnt ≠ 0 → q.cnt.toNat ≤ 8 → upcoming inp q = b :: rest →
      ∃ r', takeBit q = .ok b r' ∧ upcoming inp r' = rest ∧ r'.exh = false ∧ r'.cnt.toNat ≤ 7 := by
    intro q hq h0 h8 hu
    rw [upcoming_takeBit inp q h0 h8] at hu
    obtain ⟨hb, ht⟩ := List.cons.inj hu
    refine ⟨_, by rw [takeBit, hb], ht, hq, ?_⟩
    have : q.cnt.toNat ≠ 0 := fun e => h0 (BitVec.eq_of_toNat_eq (by simpa using e))
    rw [BitVec.toNat_sub]
    simp
    omega
  unfold fetchBit
  rw [hx]
  by_cases h0 : r.cnt = 0
  · cases hr : refill inp r with
    | none =>
      exfalso
      unfold refill at hr
      split at hr
      · cases hr
      · next hn =>
        rw [List.getElem?_eq_none_iff] at hn
        simp [upcoming, h0, List.drop_eq_nil_of_le hn] at h
    | some r1 =>
      have hu := upcoming_refill h0 hlen hr
      have h1 : r1.exh = false ∧ r1.cnt = 8 := by
        unfold refill at hr
        split at hr
        · cases hr; exact ⟨hx, rfl⟩
        · cases hr
      obtain ⟨r', hf, hrest⟩ := take r1 h1.1 (by rw [h1.2]; decide) (by rw [h1.2]; decide) (hu.trans h)
      exact ⟨r', by simpa [h0] using hf, hrest⟩
  · obtain ⟨r', hf, hrest⟩ := take r hx h0 (by omega) h
    exact ⟨r', by simpa only [Bool.false_eq_true, if_false, if_neg h0] using hf, hrest⟩

/-- fetchBit with no bit left fails and sets BR_EXH (41_bitreader.md R201). -/
theorem fetchBit_of_no_bits {inp : List Byte} {r : BitReader} (hx : r.exh = false) (hc : r.cnt.toNat ≤ 7)
    (h : upcoming inp r = []) : fetchBit inp r = .exhausted { r with exh := true } := by
  have h' := List.append_eq_nil_iff.1 h
  have h0 : r.cnt = 0 := by
    apply BitVec.eq_of_toNat_eq
    have h0 := congrArg List.length h'.1
    simp at h0
    have := hc
    simp
    omega
  have hdrop : inp[r.consumed.toNat]? = none := by
    rw [List.getElem?_eq_none_iff]
    by_contra hlt
    rw [Nat.not_le] at hlt
    have := h'.2
    rw [List.drop_eq_getElem_cons hlt, List.flatMap_cons] at this
    have := congrArg List.length this
    simp at this
  simp [fetchBit, hx, h0, refill, hdrop]

/-- Once exhausted, always exhausted (41_bitreader.md R202). -/
@[simp] theorem fetchBit_exhausted {inp : List Byte} {r : BitReader} (hx : r.exh = true) :
    fetchBit inp r = .exhausted r := by
  simp [fetchBit, hx]

theorem fetchBits_zero (inp : List Byte) (r : BitReader) : fetchBits inp 0 r = .ok 0#0 r := rfl

theorem fetchBits_succ (inp : List Byte) (n : Nat) (r : BitReader) :
    fetchBits inp (n + 1) r =
      (fetchBit inp r).andThen fun b r1 => (fetchBits inp n r1).map fun v => v.concat b := rfl

/-- A fetch never touches the bytes below BR_CONSUMED again: BR_CONSUMED moves by at most one a bit (41_bitreader.md
R201). -/
theorem fetchBit_consumed {inp : List Byte} {r r' : BitReader} {b : Bool} (h : fetchBit inp r = .ok b r') :
    r'.consumed = r.consumed ∨ r'.consumed = r.consumed + 1 := by
  unfold fetchBit at h
  split at h
  · cases h
  · split at h
    · unfold refill at h
      split at h
      · next hr =>
        split at hr
        · cases hr; cases h; exact .inr rfl
        · cases hr
      · cases h
    · cases h; exact .inl rfl

end Sys2Proof.Machine
end

