-- ==== Sys2Proof/Laws/Host.lean ====
section
/-! SUPPORT. The host models: what an earlier occurrence adds to a scan's ending. -/

namespace Sys2Proof.Machine

@[simp] theorem ScanResult.artifacts_done (fs : List Finding) (as : List Artifact) :
    (ScanResult.done fs as).artifacts = as := rfl
@[simp] theorem ScanResult.artifacts_resourceFailure (as : List Artifact) :
    (ScanResult.resourceFailure as).artifacts = as := rfl
@[simp] theorem ScanResult.artifacts_refused (r : Refusal) (as : List Artifact) :
    (ScanResult.refused r as).artifacts = as := rfl

/-- However a scan ends, what was created before stays. -/
@[simp] theorem ScanResult.artifacts_after (f : Finding) (created : List Artifact) (r : ScanResult) :
    (r.after f created).artifacts = created ++ r.artifacts := by
  cases r <;> rfl

/-- A scan that ends normally recorded its first Finding before the others. -/
theorem ScanResult.after_eq_done {f : Finding} {created : List Artifact} {r : ScanResult} {fs : List Finding}
    {as : List Artifact} :
    r.after f created = .done fs as ↔ ∃ fs' as', r = .done fs' as' ∧ fs = f :: fs' ∧ as = created ++ as' := by
  cases r <;> simp [ScanResult.after, eq_comm]

@[simp] theorem memberArtifact_invalid {cfg : ScanConfig} {h : List Byte} {i : Nat} {v : MemberVerdict}
    (hv : v.fileValid = false) : memberArtifact cfg h i v = [] := by
  simp [memberArtifact, hv]

@[simp] theorem memberArtifact_valid {cfg : ScanConfig} {h : List Byte} {i : Nat} {v : MemberVerdict}
    (hv : v.fileValid = true) :
    memberArtifact cfg h i v = [{ name := artifactName cfg i, bytes := (h.drop i).take v.length }] := by
  simp [memberArtifact, hv]

end Sys2Proof.Machine
end

