-- ==== Sys2Proof/Laws/Huffman.lean ====
section
/-! SUPPORT. Tries: where a placed code leads, what placing leaves alone, and the walk of decode. -/

namespace Sys2Proof.Machine

@[simp] theorem Trie.child_absent (b : Bool) : Trie.child b .absent = .absent := rfl
@[simp] theorem Trie.child_leaf (b : Bool) (s : Nat) : Trie.child b (.leaf s) = .absent := rfl
@[simp] theorem Trie.child_zero (l r : Trie) : Trie.child false (.node l r) = l := rfl
@[simp] theorem Trie.child_one (l r : Trie) : Trie.child true (.node l r) = r := rfl
@[simp] theorem Trie.walk_nil (t : Trie) : Trie.walk [] t = t := rfl
@[simp] theorem Trie.walk_cons (b : Bool) (c : List Bool) (t : Trie) :
    Trie.walk (b :: c) t = Trie.walk c (t.child b) := rfl

@[simp] theorem Trie.walk_absent (c : List Bool) : Trie.walk c .absent = .absent := by
  induction c with
  | nil => rfl
  | cons b c ih => exact ih

@[simp] theorem codeBits_zero (code : Nat) : codeBits code 0 = [] := rfl
theorem codeBits_succ (code len : Nat) : codeBits code (len + 1) = code.testBit len :: codeBits code len := rfl

@[simp] theorem codeBits_length (code len : Nat) : (codeBits code len).length = len := by
  induction len with
  | zero => rfl
  | succ len ih => simp [codeBits_succ, ih]

/-- A placed code leads to its leaf (43_huffman.md R241). -/
theorem Trie.walk_place {symbol : Nat} {code : List Bool} {t t' : Trie} (h : t.place symbol code = some t') :
    t'.walk code = .leaf symbol := by
  induction code generalizing t t' with
  | nil => cases t <;> simp [Trie.place] at h; subst h; rfl
  | cons b code ih =>
    cases t with
    | absent =>
      simp only [Trie.place, Option.map_eq_some_iff] at h
      obtain ⟨u, hu, rfl⟩ := h
      cases b <;> simpa using ih hu
    | leaf s => simp [Trie.place] at h
    | node l r =>
      cases b <;> simp only [Trie.place, Bool.false_eq_true, if_false, if_true, Option.map_eq_some_iff] at h
        <;> obtain ⟨u, hu, rfl⟩ := h <;> simpa using ih hu

/-- A tree that a code was placed in has a child below its root along the code: the root is internal. -/
theorem Trie.place_root {symbol : Nat} {b : Bool} {code : List Bool} {t t' : Trie}
    (h : t.place symbol (b :: code) = some t') : ∃ l r, t' = .node l r := by
  cases t with
  | absent =>
    simp only [Trie.place, Option.map_eq_some_iff] at h
    obtain ⟨u, -, rfl⟩ := h
    cases b
    · exact ⟨u, .absent, rfl⟩
    · exact ⟨.absent, u, rfl⟩
  | leaf s => simp [Trie.place] at h
  | node l r =>
    cases b <;> simp only [Trie.place, Bool.false_eq_true, if_false, if_true, Option.map_eq_some_iff] at h
      <;> obtain ⟨u, -, rfl⟩ := h
    · exact ⟨u, r, rfl⟩
    · exact ⟨l, u, rfl⟩

/-- The code a tree gives a symbol leads to a leaf of that symbol. -/
theorem Trie.walk_codeBelow {symbol : Nat} {code : List Bool} {t : Trie} (h : t.codeBelow symbol = some code) :
    t.walk code = .leaf symbol := by
  induction t generalizing code with
  | absent => simp [Trie.codeBelow] at h
  | leaf s =>
    simp only [Trie.codeBelow] at h
    split at h
    · next hs => cases h; rw [hs]; rfl
    · cases h
  | node l r ihl ihr =>
    simp only [Trie.codeBelow] at h
    split at h
    · next c hc => cases h; exact ihl hc
    · simp only [Option.map_eq_some_iff] at h
      obtain ⟨c, hc, rfl⟩ := h
      exact ihr hc

/-- One bit of decode's walk (43_huffman.md R249). -/
theorem decodeFrom_node (inp : List Byte) (l r : Trie) (br : BitReader) :
    decodeFrom inp (.node l r) br =
      (fetchBit inp br).andThen fun b br' => decodeFrom inp (Trie.child b (.node l r)) br' := by
  simp only [decodeFrom]
  cases fetchBit inp br with
  | ok b br' => cases b <;> rfl
  | exhausted br' => rfl

/-- From an internal node, decode is the loop of its children. -/
theorem decodeSymbol_node (inp : List Byte) (l r : Trie) (br : BitReader) :
    decodeSymbol inp (.node l r) br = decodeFrom inp (.node l r) br :=
  (decodeFrom_node inp l r br).symm

@[simp] theorem Trie.leadsOut_node (b : Bool) (bits : List Bool) (l r : Trie) :
    Trie.leadsOut (b :: bits) (.node l r) = Trie.leadsOut bits (Trie.child b (.node l r)) := rfl
@[simp] theorem Trie.leadsOut_leaf (bits : List Bool) (s : Nat) : Trie.leadsOut bits (.leaf s) = false := by
  cases bits <;> rfl

/-- Bits that lead out of a tree give the sentinel and are all taken (43_huffman.md R249, R250). -/
theorem decodeFrom_leadsOut {inp : List Byte} {t : Trie} {path rest : List Bool} {br : BitReader}
    (hr : ReaderReady inp br) (hp : t.leadsOut path = true) (hu : upcoming inp br = path ++ rest) :
    ∃ br', decodeFrom inp t br = .ok none br' ∧ upcoming inp br' = rest ∧ ReaderReady inp br' := by
  induction path generalizing t br with
  | nil =>
    cases t with
    | absent => exact ⟨br, rfl, hu, hr⟩
    | leaf s => simp at hp
    | node l r => cases hp
  | cons b path ih =>
    cases t with
    | absent => cases hp
    | leaf s => simp at hp
    | node l r =>
      obtain ⟨br1, h1, hu1, hx1, hc1⟩ := fetchBit_of_upcoming hr.not_exhausted hr.cnt_le hr.length_lt hu
      obtain ⟨br2, h2, hrest⟩ := ih ⟨hx1, hc1, hr.length_lt⟩ (by simpa using hp) hu1
      exact ⟨br2, by rw [decodeFrom_node, h1]; exact h2, hrest⟩

end Sys2Proof.Machine
end

