-- ==== Sys2Proof/Laws/Memory.lean ====
section
/-! SUPPORT. The window RAM: a read after a write, and every operation keeps the canonical form. -/

namespace Sys2Proof.Machine

@[simp] theorem Memory.read_nil (x : Nat) : Memory.read [] x = Memory.unlisted := rfl

theorem Memory.read_consCell (x y : Nat) (v : Byte) (m : Memory) (h : y ≠ x) :
    (Memory.consCell x v m).read y = m.read y := by
  unfold Memory.consCell
  split
  · rfl
  · simp [Memory.read, Ne.symm h]

theorem Memory.read_unlisted {m : Memory} {x : Nat} (h : ∀ c ∈ m, x < c.1) : m.read x = Memory.unlisted := by
  induction m with
  | nil => rfl
  | cons c m ih =>
    obtain ⟨a, b⟩ := c
    have ha : x < a := h (a, b) (by simp)
    simp only [Memory.read]
    rw [if_neg (by omega)]
    exact ih fun c hc => h c (by simp [hc])

theorem Memory.read_consCell_same {x : Nat} {v : Byte} {m : Memory} (h : ∀ c ∈ m, x < c.1) :
    (Memory.consCell x v m).read x = v := by
  unfold Memory.consCell
  split
  · next hv => rw [Memory.read_unlisted h, hv]
  · simp [Memory.read]

/-- A write leaves every other address alone. -/
@[simp] theorem Memory.read_write_other (m : Memory) {x y : Nat} (v : Byte) (h : y ≠ x) :
    (m.write x v).read y = m.read y := by
  induction m with
  | nil => exact Memory.read_consCell x y v [] h
  | cons c m ih =>
    obtain ⟨a, b⟩ := c
    simp only [Memory.write]
    split
    · exact Memory.read_consCell x y v _ h
    · split
      · next hxa => rw [Memory.read_consCell x y v m h]; simp [Memory.read, ← hxa, Ne.symm h]
      · simp [Memory.read, ih]

/-- A read after a write to the same address gives the byte written. -/
theorem Memory.read_write_same {m : Memory} (hm : m.Pairwise (fun c d => c.1 < d.1)) (x : Nat) (v : Byte) :
    (m.write x v).read x = v := by
  induction m with
  | nil => exact Memory.read_consCell_same (by simp)
  | cons c m ih =>
    obtain ⟨a, b⟩ := c
    rw [List.pairwise_cons] at hm
    simp only [Memory.write]
    split
    · next hxa =>
      refine Memory.read_consCell_same fun c hc => ?_
      rcases List.mem_cons.1 hc with rfl | hc
      · exact hxa
      · exact Nat.lt_trans hxa (hm.1 c hc)
    · split
      · next hxa => exact Memory.read_consCell_same fun c hc => hxa ▸ hm.1 c hc
      · next hne => simp [Memory.read, Ne.symm hne, ih hm.2]

theorem Memory.mem_consCell {c : Host.Cell} {x : Nat} {v : Byte} {m : Memory}
    (h : c ∈ Memory.consCell x v m) : (c = (x, v) ∧ v ≠ Memory.unlisted) ∨ c ∈ m := by
  unfold Memory.consCell at h
  split at h
  · exact .inr h
  · next hv =>
    rcases List.mem_cons.1 h with rfl | h
    · exact .inl ⟨rfl, hv⟩
    · exact .inr h

theorem Memory.mem_write {m : Memory} {c : Host.Cell} {x : Nat} {v : Byte} (h : c ∈ m.write x v) :
    (c = (x, v) ∧ v ≠ Memory.unlisted) ∨ c ∈ m := by
  induction m with
  | nil => exact Memory.mem_consCell h
  | cons d m ih =>
    obtain ⟨a, b⟩ := d
    simp only [Memory.write] at h
    split at h
    · exact Memory.mem_consCell h
    · split at h
      · exact (Memory.mem_consCell h).imp_right (List.mem_cons_of_mem _)
      · rcases List.mem_cons.1 h with rfl | h
        · exact .inr (by simp)
        · exact (ih h).imp_right (List.mem_cons_of_mem _)

theorem Memory.write_sorted {m : Memory} (hm : m.Pairwise (fun c d => c.1 < d.1)) (x : Nat) (v : Byte) :
    (m.write x v).Pairwise (fun c d => c.1 < d.1) := by
  have cell : ∀ {m : Memory}, m.Pairwise (fun c d => c.1 < d.1) → (∀ c ∈ m, x < c.1) →
      (Memory.consCell x v m).Pairwise (fun c d => c.1 < d.1) := by
    intro m hm hx
    unfold Memory.consCell
    split
    · exact hm
    · exact List.pairwise_cons.2 ⟨hx, hm⟩
  induction m with
  | nil => exact cell List.Pairwise.nil (by simp)
  | cons c m ih =>
    obtain ⟨a, b⟩ := c
    have hm' := List.pairwise_cons.1 hm
    simp only [Memory.write]
    split
    · next hxa =>
      refine cell hm fun c hc => ?_
      rcases List.mem_cons.1 hc with rfl | hc
      · exact hxa
      · exact Nat.lt_trans hxa (hm'.1 c hc)
    · split
      · next hxa => exact cell hm'.2 fun c hc => hxa ▸ hm'.1 c hc
      · refine List.pairwise_cons.2 ⟨fun c hc => ?_, ih hm'.2⟩
        rcases Memory.mem_write hc with ⟨rfl, -⟩ | hc
        · dsimp only; omega
        · exact hm'.1 c hc

/-- A write inside WIN keeps the canonical form. -/
theorem Memory.write_wf {m : Memory} (hm : m.wf) {x : Nat} (hx : x < Config.windowSize) (v : Byte) :
    (m.write x v).wf := by
  refine ⟨Memory.write_sorted hm.1 x v, fun c hc => ?_⟩
  rcases Memory.mem_write hc with ⟨rfl, hv⟩ | hc
  · exact ⟨hx, hv⟩
  · exact hm.2 c hc

theorem Memory.nil_wf : Memory.wf [] := ⟨List.Pairwise.nil, by simp⟩

/-- The RAM that free contents give is in canonical form. -/
theorem Memory.ofWrites_wf (ws : List Host.Cell) : (Memory.ofWrites ws).wf := by
  suffices h : ∀ (ws : List Host.Cell) (m : Memory), m.wf →
      (ws.foldl (fun m c => m.write (c.1 % Config.windowSize) c.2) m).wf from h ws [] Memory.nil_wf
  intro ws
  induction ws with
  | nil => exact fun m hm => hm
  | cons c ws ih => exact fun m hm => ih _ (Memory.write_wf hm (Nat.mod_lt _ (by decide)) c.2)

end Sys2Proof.Machine
end

