-- ==== Sys2Proof/Laws/Ops.lean ====
section
/-! SUPPORT. The shared operations: for each, everything it can answer. -/

namespace Sys2Proof.Machine

/-- The sink's RAM stays in canonical form when a byte is appended. -/
theorem Sink.append_ram_wf {k : Sink} (h : Memory.wf k.ram) (b : Byte) : Memory.wf (k.append b).ram :=
  Memory.write_wf h k.wp.isLt b

theorem Sink.copy_zero (back : Nat) (k : Sink) : k.copy back 0 = k := rfl

theorem Sink.copy_succ (back n : Nat) (k : Sink) :
    k.copy back (n + 1) = (k.append (k.byteBack back)).copy back n := rfl

theorem Sink.copy_ram_wf {k : Sink} (h : Memory.wf k.ram) (back n : Nat) : Memory.wf (k.copy back n).ram := by
  induction n generalizing k with
  | zero => exact h
  | succ n ih => exact ih (Sink.append_ram_wf h _)

/-- A copy emits as many bytes as it copies, after those emitted before. -/
theorem Sink.copy_out (back n : Nat) (k : Sink) : ∃ bs, bs.length = n ∧ (k.copy back n).out = k.out ++ bs := by
  induction n generalizing k with
  | zero => exact ⟨[], rfl, by simp [Sink.copy]⟩
  | succ n ih =>
    obtain ⟨bs, hl, ho⟩ := ih (k.append (k.byteBack back))
    exact ⟨k.byteBack back :: bs, by simp [hl], by simp [Sink.copy_succ, ho]⟩

/-- repeatFragment answers a sink exactly when the distance is held, and it is the copy (44_window.md R274, R275). -/
theorem Sink.repeatFragment_eq_some {k k' : Sink} {back len : Nat} :
    k.repeatFragment back len = some k' ↔ back < k.held.toNat ∧ k' = k.copy back len := by
  unfold Sink.repeatFragment
  split
  · next h => simp; omega
  · next h => simp [eq_comm]; omega

/-- Everything a distance code can answer (47_symbols.md R376). -/
theorem copyMatch_cases (code e : Nat) (s : State) :
    (s.matchLen = none ∧ copyMatch code e s = .fault .noPendingLength) ∨
    (∃ len, s.matchLen = some len ∧ s.sink.held.toNat ≤ backDistance code e ∧
      copyMatch code e s = .next (failStructural .invalidBackReference s)) ∨
    (∃ len, s.matchLen = some len ∧ backDistance code e < s.sink.held.toNat ∧
      copyMatch code e s = .next { s with sink := s.sink.copy (backDistance code e) len, matchLen := none }) := by
  unfold copyMatch
  split
  · next h => exact .inl ⟨h, rfl⟩
  · next len h =>
    unfold Sink.repeatFragment
    by_cases hb : s.sink.held.toNat ≤ backDistance code e
    · exact .inr (.inl ⟨len, h, hb, by simp [hb]⟩)
    · exact .inr (.inr ⟨len, h, Nat.lt_of_not_le hb, by simp [hb]⟩)

/-- Everything a code-length symbol that stores can answer (46_dynamic_header.md R336, R342). -/
theorem storeLengths_cases (rep : Nat) (v : BitVec 4) (s : State) :
    (lensTotal s.hlit s.hdist < s.lensIdx.toNat + rep ∧
      storeLengths rep v s = .next (failStructural .clRepeatOverrun s)) ∨
    (s.lensIdx.toNat + rep ≤ lensTotal s.hlit s.hdist ∧
      storeLengths rep v s = .next { s with
        lens := fillLens v rep s.lensIdx.toNat s.lens
        lensIdx := s.lensIdx + BitVec.ofNat 9 rep
        phase := if s.lensIdx.toNat + rep = lensTotal s.hlit s.hdist then .dynBuild else s.phase }) := by
  unfold storeLengths
  by_cases h : lensTotal s.hlit s.hdist < s.lensIdx.toNat + rep
  · exact .inl ⟨h, by simp [h]⟩
  · exact .inr ⟨Nat.le_of_not_lt h, by simp [h]⟩

/-- Every entry after fillLens (46_dynamic_header.md R336). -/
theorem fillLens_getElem (v : BitVec 4) (rep i : Nat) (lens : Vector (BitVec 4) 318) (k : Nat) (hk : k < 318) :
    (fillLens v rep i lens)[k] = if i ≤ k ∧ k < i + rep then v else lens[k] := by
  induction rep generalizing i lens with
  | zero => simp [fillLens]
  | succ rep ih =>
    rw [fillLens, ih]
    rw [Vector.getElem_setIfInBounds hk]
    by_cases hik : i = k
    · subst hik; simp
    · by_cases h : i + 1 ≤ k ∧ k < i + 1 + rep
      · rw [if_pos h, if_pos (by omega)]
      · rw [if_neg h, if_neg hik, if_neg (by omega)]

/-- The failure entry meets what the invariant asks of a failed state. -/
theorem failStructural_inv (cause : FailCause) (hc : cause ≠ .none) (s : State) : (failStructural cause s).Inv where
  ram_wf := Memory.ofWrites_wf _
  no_pending := rfl
  status := by simp [StatusInv, hc]
  reader := fun h => absurd rfl h
  sink := fun h => absurd rfl h
  header := fun h => absurd rfl h

theorem failExhausted_inv (s : State) : (failExhausted s).Inv where
  ram_wf := Memory.ofWrites_wf _
  no_pending := rfl
  status := by simp [StatusInv]
  reader := fun h => absurd rfl h
  sink := fun h => absurd rfl h
  header := fun h => absurd rfl h

end Sys2Proof.Machine
end

