-- ==== Sys2Proof/Laws/Step.lean ====
section
/-! SUPPORT. The decoder gives elements of the format its context expects, every element but a lone distance has a next
state, and the step is the run of one element, of a length/distance pair, or of a build. -/

namespace Sys2Proof.Machine

/-- What the decoder answers is an element of one of the two expected kinds of answer, seen through the fetches. -/
theorem withExtra_eq_ok {n : Nat} {mk : BitVec n → Instr} {inp : List Byte} {r r' : BitReader} {i : Instr}
    (h : withExtra n mk inp r = .ok (.ok i) r') : ∃ e, i = mk e := by
  obtain ⟨e, -, he⟩ := Fetched.map_eq_ok h
  cases he
  exact ⟨e, rfl⟩

theorem noExtra_eq_ok {i j : Instr} {r r' : BitReader} (h : noExtra i r = .ok (.ok j) r') : j = i := by
  cases h; rfl

theorem headerElement_format (h : BitVec 3) : (headerElement h).format = .bh := by
  unfold headerElement; split <;> rfl

theorem clElement_format {hasPrev : Bool} {sym : Nat} {inp : List Byte} {r r' : BitReader} {i : Instr}
    (h : clElement hasPrev sym inp r = .ok (.ok i) r') : i.format = .cls := by
  unfold clElement at h
  repeat' split at h
  all_goals first
    | (rw [noExtra_eq_ok h]; rfl)
    | (obtain ⟨e, rfl⟩ := withExtra_eq_ok h; rfl)
    | cases h

theorem litLenElement_format {sym : Nat} {inp : List Byte} {r r' : BitReader} {i : Instr}
    (h : litLenElement sym inp r = .ok (.ok i) r') : i.format = .ll := by
  unfold litLenElement at h
  split at h
  · rw [noExtra_eq_ok h]; rfl
  · unfold lengthElement at h
    split at h
    all_goals first
      | (rw [noExtra_eq_ok h]; rfl)
      | (obtain ⟨e, rfl⟩ := withExtra_eq_ok h; rfl)
      | cases h

theorem distElement_format {sym : Nat} {inp : List Byte} {r r' : BitReader} {i : Instr}
    (h : distElement sym inp r = .ok (.ok i) r') : i.format = .d := by
  unfold distElement at h
  split at h
  all_goals first
    | (rw [noExtra_eq_ok h]; rfl)
    | (obtain ⟨e, rfl⟩ := withExtra_eq_ok h; rfl)
    | cases h

theorem codedElement_eq_ok {tree : Trie} {e : DecodeError} {el : Nat → List Byte → BitReader → Decoded}
    {inp : List Byte} {r r' : BitReader} {i : Instr} (h : codedElement tree e el inp r = .ok (.ok i) r') :
    ∃ s r1, decodeSymbol inp tree r = .ok (some s) r1 ∧ el s inp r1 = .ok (.ok i) r' := by
  obtain ⟨o, r1, hd, he⟩ := Fetched.andThen_eq_ok h
  cases o with
  | none => cases he
  | some s => exact ⟨s, r1, hd, he⟩

/-- The decoder answers only elements of the format its context expects (30_encoding.md R140). -/
theorem decodeElement_format {c : Context} {inp : List Byte} {r r' : BitReader} {i : Instr}
    (h : decodeElement c inp r = .ok (.ok i) r') : i.format = c.format := by
  cases c with
  | header =>
    obtain ⟨v, -, hv⟩ := Fetched.map_eq_ok h
    cases hv
    exact headerElement_format v
  | storedHeader =>
    obtain ⟨len, r1, -, h1⟩ := Fetched.andThen_eq_ok h
    obtain ⟨v, -, hv⟩ := Fetched.map_eq_ok h1
    cases hv; rfl
  | storedByte =>
    obtain ⟨v, -, hv⟩ := Fetched.map_eq_ok h
    cases hv; rfl
  | dynHeader =>
    obtain ⟨a, r1, -, h1⟩ := Fetched.andThen_eq_ok h
    obtain ⟨b, r2, -, h2⟩ := Fetched.andThen_eq_ok h1
    obtain ⟨v, -, hv⟩ := Fetched.map_eq_ok h2
    cases hv; rfl
  | clLength =>
    obtain ⟨v, -, hv⟩ := Fetched.map_eq_ok h
    cases hv; rfl
  | clSymbol tree hasPrev =>
    obtain ⟨s, r1, -, he⟩ := codedElement_eq_ok h
    exact clElement_format he
  | litLen tree =>
    obtain ⟨s, r1, -, he⟩ := codedElement_eq_ok h
    exact litLenElement_format he
  | dist tree =>
    obtain ⟨s, r1, -, he⟩ := codedElement_eq_ok h
    exact distElement_format he

/-- Every element has a next state, a distance element when a length is pending. -/
theorem exec_next (i : Instr) (s : State) (h : i.format = .d → s.matchLen.isSome = true) :
    ∃ t, exec i s = .next t := by
  have store : ∀ rep v, ∃ t, storeLengths rep v s = .next t := fun rep v => by
    rcases storeLengths_cases rep v s with ⟨-, h⟩ | ⟨-, h⟩ <;> exact ⟨_, h⟩
  have copy : s.matchLen.isSome = true → ∀ c e, ∃ t, copyMatch c e s = .next t := fun hs c e => by
    rcases copyMatch_cases c e s with ⟨hn, -⟩ | ⟨_, -, -, h⟩ | ⟨_, -, -, h⟩
    · rw [hn] at hs; cases hs
    · exact ⟨_, h⟩
    · exact ⟨_, h⟩
  cases i
  case storedHdr len nlen =>
    simp only [exec, execStoredHdr]; split
    · exact ⟨_, rfl⟩
    · split <;> exact ⟨_, rfl⟩
  case storedByte b => simp only [exec, execStoredByte]; split <;> exact ⟨_, rfl⟩
  case dynHdr a b c => simp only [exec, execDynHdr]; split <;> exact ⟨_, rfl⟩
  case clLength v => simp only [exec, execClLength]; split <;> exact ⟨_, rfl⟩
  case clRepPrev e =>
    simp only [exec, execClRepPrev]; split
    · exact ⟨_, rfl⟩
    · exact store _ _
  all_goals first
    | exact ⟨_, rfl⟩
    | exact store _ _
    | exact copy (h rfl) _ _

/-- Running one element: the run of what was decoded, or the failure entry (45_block_fsm.md R300). -/
theorem runElement_cases (c : Context) (s : State) :
    (∃ i r, decodeElement c s.inBytes s.br = .ok (.ok i) r ∧ runElement c s = exec i (s.withReader r)) ∨
    (∃ e r, decodeElement c s.inBytes s.br = .ok (.error e) r ∧
      runElement c s = .next (failStructural (decodeErrorCause e) (s.withReader r))) ∨
    (∃ r, decodeElement c s.inBytes s.br = .exhausted r ∧ runElement c s = .next (failExhausted (s.withReader r))) := by
  unfold runElement
  cases h : decodeElement c s.inBytes s.br with
  | ok v r =>
    cases v with
    | ok i => exact .inl ⟨i, r, rfl, rfl⟩
    | error e => exact .inr (.inl ⟨e, r, rfl, rfl⟩)
  | exhausted r => exact .inr (.inr ⟨r, rfl, rfl⟩)

/-- Outside SYM, the step of a phase that takes an element is the run of it. -/
theorem step_element {s : State} {c : Context} (hp : s.phase ≠ .sym) (hc : elementContext s = some c) :
    step s = runElement c s := by
  unfold step stepPhase
  split
  · next h => simp [elementContext, h] at hc
  · next h => simp [elementContext, h] at hc
  · next h => exact absurd h hp
  · rw [hc]

/-- In SYM with no length pending, the step is the run of a literal/length element and then of the distance it asks for
(47_symbols.md R360, R378). -/
theorem step_sym {s : State} (hp : s.phase = .sym) (hm : s.matchLen = none) :
    step s = finishPair (runElement (.litLen (litLenTree s)) s) := by
  simp [step, stepPhase, hp, hm]

theorem step_clBuild {s : State} (hp : s.phase = .dynClBuild) : step s = .next (stepClBuild s) := by
  simp [step, stepPhase, hp]

theorem step_build {s : State} (hp : s.phase = .dynBuild) : step s = .next (stepBuild s) := by
  simp [step, stepPhase, hp]

end Sys2Proof.Machine
end

