-- ==== Sys2Proof/Laws/PerInstr.lean ====
section
/-! SUPPORT. Statements made for each instruction by itself. -/

namespace Sys2Proof.Laws.Extra

open Sys2Proof.Machine

/-- The symbol and the extra bits of an element fit the tables (30_encoding.md R147, R151, R152, R155): the symbol is of
its value space, and there are as many extra bits as the table gives, which hold the extra value. -/
def Statement (i : Instr) : Prop :=
  (i.format = .cls → i.symbol ≤ 18) ∧ (i.format = .ll → i.symbol ≤ 287) ∧ (i.format = .d → i.symbol ≤ 31) ∧
  (i.format = .ll → 257 ≤ i.symbol → i.symbol ≤ 285 → i.extraBits.length = lext i.symbol) ∧
  (i.format = .d → i.symbol ≤ 29 → i.extraBits.length = dext i.symbol) ∧
  i.extraValue < 2 ^ i.extraBits.length

/-- A value of `n` bits is below 2^n, whatever list of that length holds its bits. -/
theorem extra_lt {n : Nat} (v : BitVec n) : v.toNat < 2 ^ (fieldBits v).length := by
  rw [fieldBits_length]; exact v.isLt

theorem blockStored (final : Bool) : Statement (.blockStored final) :=
  ⟨nofun, nofun, nofun, nofun, nofun, Nat.one_pos⟩
theorem blockFixed (final : Bool) : Statement (.blockFixed final) :=
  ⟨nofun, nofun, nofun, nofun, nofun, Nat.one_pos⟩
theorem blockDynamic (final : Bool) : Statement (.blockDynamic final) :=
  ⟨nofun, nofun, nofun, nofun, nofun, Nat.one_pos⟩
theorem blockReserved (final : Bool) : Statement (.blockReserved final) :=
  ⟨nofun, nofun, nofun, nofun, nofun, Nat.one_pos⟩
theorem storedHdr (len : BitVec 16) (nlen : BitVec 16) : Statement (.storedHdr len nlen) :=
  ⟨nofun, nofun, nofun, nofun, nofun, Nat.one_pos⟩
theorem storedByte (b : BitVec 8) : Statement (.storedByte b) :=
  ⟨nofun, nofun, nofun, nofun, nofun, Nat.one_pos⟩
theorem dynHdr (hlit : BitVec 5) (hdist : BitVec 5) (hclen : BitVec 4) : Statement (.dynHdr hlit hdist hclen) :=
  ⟨nofun, nofun, nofun, nofun, nofun, Nat.one_pos⟩
theorem clLength (len : BitVec 3) : Statement (.clLength len) :=
  ⟨nofun, nofun, nofun, nofun, nofun, Nat.one_pos⟩
theorem clLen (len : BitVec 4) : Statement (.clLen len) :=
  ⟨fun _ => Nat.le_trans (Nat.le_of_lt_succ len.isLt) (by decide), nofun, nofun, nofun, nofun, Nat.one_pos⟩
theorem clRepPrev (extra : BitVec 2) : Statement (.clRepPrev extra) :=
  ⟨fun _ => Nat.le_of_ble_eq_true rfl, nofun, nofun, nofun, nofun, extra_lt extra⟩
theorem clRepZeroShort (extra : BitVec 3) : Statement (.clRepZeroShort extra) :=
  ⟨fun _ => Nat.le_of_ble_eq_true rfl, nofun, nofun, nofun, nofun, extra_lt extra⟩
theorem clRepZeroLong (extra : BitVec 7) : Statement (.clRepZeroLong extra) :=
  ⟨fun _ => Nat.le_of_ble_eq_true rfl, nofun, nofun, nofun, nofun, extra_lt extra⟩
theorem lit (b : BitVec 8) : Statement (.lit b) :=
  ⟨nofun, fun _ => Nat.le_trans (Nat.le_of_lt_succ b.isLt) (by decide), nofun,
    fun _ h _ => absurd b.isLt (Nat.not_lt.2 (Nat.le_trans (by decide) h)), nofun, Nat.one_pos⟩
theorem eob : Statement (.eob) :=
  ⟨nofun, fun _ => Nat.le_of_ble_eq_true rfl, nofun,
    fun _ h _ => absurd h (by decide), nofun, Nat.one_pos⟩
theorem len257 : Statement (.len257) :=
  ⟨nofun, fun _ => Nat.le_of_ble_eq_true rfl, nofun,
    fun _ _ _ => rfl, nofun, Nat.one_pos⟩
theorem len258 : Statement (.len258) :=
  ⟨nofun, fun _ => Nat.le_of_ble_eq_true rfl, nofun,
    fun _ _ _ => rfl, nofun, Nat.one_pos⟩
theorem len259 : Statement (.len259) :=
  ⟨nofun, fun _ => Nat.le_of_ble_eq_true rfl, nofun,
    fun _ _ _ => rfl, nofun, Nat.one_pos⟩
theorem len260 : Statement (.len260) :=
  ⟨nofun, fun _ => Nat.le_of_ble_eq_true rfl, nofun,
    fun _ _ _ => rfl, nofun, Nat.one_pos⟩
theorem len261 : Statement (.len261) :=
  ⟨nofun, fun _ => Nat.le_of_ble_eq_true rfl, nofun,
    fun _ _ _ => rfl, nofun, Nat.one_pos⟩
theorem len262 : Statement (.len262) :=
  ⟨nofun, fun _ => Nat.le_of_ble_eq_true rfl, nofun,
    fun _ _ _ => rfl, nofun, Nat.one_pos⟩
theorem len263 : Statement (.len263) :=
  ⟨nofun, fun _ => Nat.le_of_ble_eq_true rfl, nofun,
    fun _ _ _ => rfl, nofun, Nat.one_pos⟩
theorem len264 : Statement (.len264) :=
  ⟨nofun, fun _ => Nat.le_of_ble_eq_true rfl, nofun,
    fun _ _ _ => rfl, nofun, Nat.one_pos⟩
theorem len265 (extra : BitVec 1) : Statement (.len265 extra) :=
  ⟨nofun, fun _ => Nat.le_of_ble_eq_true rfl, nofun,
    fun _ _ _ => (fieldBits_length extra).trans (Nat.eq_of_beq_eq_true rfl : 1 = lext 265), nofun, extra_lt extra⟩
theorem len266 (extra : BitVec 1) : Statement (.len266 extra) :=
  ⟨nofun, fun _ => Nat.le_of_ble_eq_true rfl, nofun,
    fun _ _ _ => (fieldBits_length extra).trans (Nat.eq_of_beq_eq_true rfl : 1 = lext 266), nofun, extra_lt extra⟩
theorem len267 (extra : BitVec 1) : Statement (.len267 extra) :=
  ⟨nofun, fun _ => Nat.le_of_ble_eq_true rfl, nofun,
    fun _ _ _ => (fieldBits_length extra).trans (Nat.eq_of_beq_eq_true rfl : 1 = lext 267), nofun, extra_lt extra⟩
theorem len268 (extra : BitVec 1) : Statement (.len268 extra) :=
  ⟨nofun, fun _ => Nat.le_of_ble_eq_true rfl, nofun,
    fun _ _ _ => (fieldBits_length extra).trans (Nat.eq_of_beq_eq_true rfl : 1 = lext 268), nofun, extra_lt extra⟩
theorem len269 (extra : BitVec 2) : Statement (.len269 extra) :=
  ⟨nofun, fun _ => Nat.le_of_ble_eq_true rfl, nofun,
    fun _ _ _ => (fieldBits_length extra).trans (Nat.eq_of_beq_eq_true rfl : 2 = lext 269), nofun, extra_lt extra⟩
theorem len270 (extra : BitVec 2) : Statement (.len270 extra) :=
  ⟨nofun, fun _ => Nat.le_of_ble_eq_true rfl, nofun,
    fun _ _ _ => (fieldBits_length extra).trans (Nat.eq_of_beq_eq_true rfl : 2 = lext 270), nofun, extra_lt extra⟩
theorem len271 (extra : BitVec 2) : Statement (.len271 extra) :=
  ⟨nofun, fun _ => Nat.le_of_ble_eq_true rfl, nofun,
    fun _ _ _ => (fieldBits_length extra).trans (Nat.eq_of_beq_eq_true rfl : 2 = lext 271), nofun, extra_lt extra⟩
theorem len272 (extra : BitVec 2) : Statement (.len272 extra) :=
  ⟨nofun, fun _ => Nat.le_of_ble_eq_true rfl, nofun,
    fun _ _ _ => (fieldBits_length extra).trans (Nat.eq_of_beq_eq_true rfl : 2 = lext 272), nofun, extra_lt extra⟩
theorem len273 (extra : BitVec 3) : Statement (.len273 extra) :=
  ⟨nofun, fun _ => Nat.le_of_ble_eq_true rfl, nofun,
    fun _ _ _ => (fieldBits_length extra).trans (Nat.eq_of_beq_eq_true rfl : 3 = lext 273), nofun, extra_lt extra⟩
theorem len274 (extra : BitVec 3) : Statement (.len274 extra) :=
  ⟨nofun, fun _ => Nat.le_of_ble_eq_true rfl, nofun,
    fun _ _ _ => (fieldBits_length extra).trans (Nat.eq_of_beq_eq_true rfl : 3 = lext 274), nofun, extra_lt extra⟩
theorem len275 (extra : BitVec 3) : Statement (.len275 extra) :=
  ⟨nofun, fun _ => Nat.le_of_ble_eq_true rfl, nofun,
    fun _ _ _ => (fieldBits_length extra).trans (Nat.eq_of_beq_eq_true rfl : 3 = lext 275), nofun, extra_lt extra⟩
theorem len276 (extra : BitVec 3) : Statement (.len276 extra) :=
  ⟨nofun, fun _ => Nat.le_of_ble_eq_true rfl, nofun,
    fun _ _ _ => (fieldBits_length extra).trans (Nat.eq_of_beq_eq_true rfl : 3 = lext 276), nofun, extra_lt extra⟩
theorem len277 (extra : BitVec 4) : Statement (.len277 extra) :=
  ⟨nofun, fun _ => Nat.le_of_ble_eq_true rfl, nofun,
    fun _ _ _ => (fieldBits_length extra).trans (Nat.eq_of_beq_eq_true rfl : 4 = lext 277), nofun, extra_lt extra⟩
theorem len278 (extra : BitVec 4) : Statement (.len278 extra) :=
  ⟨nofun, fun _ => Nat.le_of_ble_eq_true rfl, nofun,
    fun _ _ _ => (fieldBits_length extra).trans (Nat.eq_of_beq_eq_true rfl : 4 = lext 278), nofun, extra_lt extra⟩
theorem len279 (extra : BitVec 4) : Statement (.len279 extra) :=
  ⟨nofun, fun _ => Nat.le_of_ble_eq_true rfl, nofun,
    fun _ _ _ => (fieldBits_length extra).trans (Nat.eq_of_beq_eq_true rfl : 4 = lext 279), nofun, extra_lt extra⟩
theorem len280 (extra : BitVec 4) : Statement (.len280 extra) :=
  ⟨nofun, fun _ => Nat.le_of_ble_eq_true rfl, nofun,
    fun _ _ _ => (fieldBits_length extra).trans (Nat.eq_of_beq_eq_true rfl : 4 = lext 280), nofun, extra_lt extra⟩
theorem len281 (extra : BitVec 5) : Statement (.len281 extra) :=
  ⟨nofun, fun _ => Nat.le_of_ble_eq_true rfl, nofun,
    fun _ _ _ => (fieldBits_length extra).trans (Nat.eq_of_beq_eq_true rfl : 5 = lext 281), nofun, extra_lt extra⟩
theorem len282 (extra : BitVec 5) : Statement (.len282 extra) :=
  ⟨nofun, fun _ => Nat.le_of_ble_eq_true rfl, nofun,
    fun _ _ _ => (fieldBits_length extra).trans (Nat.eq_of_beq_eq_true rfl : 5 = lext 282), nofun, extra_lt extra⟩
theorem len283 (extra : BitVec 5) : Statement (.len283 extra) :=
  ⟨nofun, fun _ => Nat.le_of_ble_eq_true rfl, nofun,
    fun _ _ _ => (fieldBits_length extra).trans (Nat.eq_of_beq_eq_true rfl : 5 = lext 283), nofun, extra_lt extra⟩
theorem len284 (extra : BitVec 5) : Statement (.len284 extra) :=
  ⟨nofun, fun _ => Nat.le_of_ble_eq_true rfl, nofun,
    fun _ _ _ => (fieldBits_length extra).trans (Nat.eq_of_beq_eq_true rfl : 5 = lext 284), nofun, extra_lt extra⟩
theorem len285 : Statement (.len285) :=
  ⟨nofun, fun _ => Nat.le_of_ble_eq_true rfl, nofun,
    fun _ _ _ => rfl, nofun, Nat.one_pos⟩
theorem llInvalid286 : Statement (.llInvalid286) :=
  ⟨nofun, fun _ => Nat.le_of_ble_eq_true rfl, nofun,
    fun _ _ h => absurd h (by decide), nofun, Nat.one_pos⟩
theorem llInvalid287 : Statement (.llInvalid287) :=
  ⟨nofun, fun _ => Nat.le_of_ble_eq_true rfl, nofun,
    fun _ _ h => absurd h (by decide), nofun, Nat.one_pos⟩
theorem dist0 : Statement (.dist0) :=
  ⟨nofun, nofun, fun _ => Nat.le_of_ble_eq_true rfl, nofun,
    fun _ _ => rfl, Nat.one_pos⟩
theorem dist1 : Statement (.dist1) :=
  ⟨nofun, nofun, fun _ => Nat.le_of_ble_eq_true rfl, nofun,
    fun _ _ => rfl, Nat.one_pos⟩
theorem dist2 : Statement (.dist2) :=
  ⟨nofun, nofun, fun _ => Nat.le_of_ble_eq_true rfl, nofun,
    fun _ _ => rfl, Nat.one_pos⟩
theorem dist3 : Statement (.dist3) :=
  ⟨nofun, nofun, fun _ => Nat.le_of_ble_eq_true rfl, nofun,
    fun _ _ => rfl, Nat.one_pos⟩
theorem dist4 (extra : BitVec 1) : Statement (.dist4 extra) :=
  ⟨nofun, nofun, fun _ => Nat.le_of_ble_eq_true rfl, nofun,
    fun _ _ => (fieldBits_length extra).trans (Nat.eq_of_beq_eq_true rfl : 1 = dext 4), extra_lt extra⟩
theorem dist5 (extra : BitVec 1) : Statement (.dist5 extra) :=
  ⟨nofun, nofun, fun _ => Nat.le_of_ble_eq_true rfl, nofun,
    fun _ _ => (fieldBits_length extra).trans (Nat.eq_of_beq_eq_true rfl : 1 = dext 5), extra_lt extra⟩
theorem dist6 (extra : BitVec 2) : Statement (.dist6 extra) :=
  ⟨nofun, nofun, fun _ => Nat.le_of_ble_eq_true rfl, nofun,
    fun _ _ => (fieldBits_length extra).trans (Nat.eq_of_beq_eq_true rfl : 2 = dext 6), extra_lt extra⟩
theorem dist7 (extra : BitVec 2) : Statement (.dist7 extra) :=
  ⟨nofun, nofun, fun _ => Nat.le_of_ble_eq_true rfl, nofun,
    fun _ _ => (fieldBits_length extra).trans (Nat.eq_of_beq_eq_true rfl : 2 = dext 7), extra_lt extra⟩
theorem dist8 (extra : BitVec 3) : Statement (.dist8 extra) :=
  ⟨nofun, nofun, fun _ => Nat.le_of_ble_eq_true rfl, nofun,
    fun _ _ => (fieldBits_length extra).trans (Nat.eq_of_beq_eq_true rfl : 3 = dext 8), extra_lt extra⟩
theorem dist9 (extra : BitVec 3) : Statement (.dist9 extra) :=
  ⟨nofun, nofun, fun _ => Nat.le_of_ble_eq_true rfl, nofun,
    fun _ _ => (fieldBits_length extra).trans (Nat.eq_of_beq_eq_true rfl : 3 = dext 9), extra_lt extra⟩
theorem dist10 (extra : BitVec 4) : Statement (.dist10 extra) :=
  ⟨nofun, nofun, fun _ => Nat.le_of_ble_eq_true rfl, nofun,
    fun _ _ => (fieldBits_length extra).trans (Nat.eq_of_beq_eq_true rfl : 4 = dext 10), extra_lt extra⟩
theorem dist11 (extra : BitVec 4) : Statement (.dist11 extra) :=
  ⟨nofun, nofun, fun _ => Nat.le_of_ble_eq_true rfl, nofun,
    fun _ _ => (fieldBits_length extra).trans (Nat.eq_of_beq_eq_true rfl : 4 = dext 11), extra_lt extra⟩
theorem dist12 (extra : BitVec 5) : Statement (.dist12 extra) :=
  ⟨nofun, nofun, fun _ => Nat.le_of_ble_eq_true rfl, nofun,
    fun _ _ => (fieldBits_length extra).trans (Nat.eq_of_beq_eq_true rfl : 5 = dext 12), extra_lt extra⟩
theorem dist13 (extra : BitVec 5) : Statement (.dist13 extra) :=
  ⟨nofun, nofun, fun _ => Nat.le_of_ble_eq_true rfl, nofun,
    fun _ _ => (fieldBits_length extra).trans (Nat.eq_of_beq_eq_true rfl : 5 = dext 13), extra_lt extra⟩
theorem dist14 (extra : BitVec 6) : Statement (.dist14 extra) :=
  ⟨nofun, nofun, fun _ => Nat.le_of_ble_eq_true rfl, nofun,
    fun _ _ => (fieldBits_length extra).trans (Nat.eq_of_beq_eq_true rfl : 6 = dext 14), extra_lt extra⟩
theorem dist15 (extra : BitVec 6) : Statement (.dist15 extra) :=
  ⟨nofun, nofun, fun _ => Nat.le_of_ble_eq_true rfl, nofun,
    fun _ _ => (fieldBits_length extra).trans (Nat.eq_of_beq_eq_true rfl : 6 = dext 15), extra_lt extra⟩
theorem dist16 (extra : BitVec 7) : Statement (.dist16 extra) :=
  ⟨nofun, nofun, fun _ => Nat.le_of_ble_eq_true rfl, nofun,
    fun _ _ => (fieldBits_length extra).trans (Nat.eq_of_beq_eq_true rfl : 7 = dext 16), extra_lt extra⟩
theorem dist17 (extra : BitVec 7) : Statement (.dist17 extra) :=
  ⟨nofun, nofun, fun _ => Nat.le_of_ble_eq_true rfl, nofun,
    fun _ _ => (fieldBits_length extra).trans (Nat.eq_of_beq_eq_true rfl : 7 = dext 17), extra_lt extra⟩
theorem dist18 (extra : BitVec 8) : Statement (.dist18 extra) :=
  ⟨nofun, nofun, fun _ => Nat.le_of_ble_eq_true rfl, nofun,
    fun _ _ => (fieldBits_length extra).trans (Nat.eq_of_beq_eq_true rfl : 8 = dext 18), extra_lt extra⟩
theorem dist19 (extra : BitVec 8) : Statement (.dist19 extra) :=
  ⟨nofun, nofun, fun _ => Nat.le_of_ble_eq_true rfl, nofun,
    fun _ _ => (fieldBits_length extra).trans (Nat.eq_of_beq_eq_true rfl : 8 = dext 19), extra_lt extra⟩
theorem dist20 (extra : BitVec 9) : Statement (.dist20 extra) :=
  ⟨nofun, nofun, fun _ => Nat.le_of_ble_eq_true rfl, nofun,
    fun _ _ => (fieldBits_length extra).trans (Nat.eq_of_beq_eq_true rfl : 9 = dext 20), extra_lt extra⟩
theorem dist21 (extra : BitVec 9) : Statement (.dist21 extra) :=
  ⟨nofun, nofun, fun _ => Nat.le_of_ble_eq_true rfl, nofun,
    fun _ _ => (fieldBits_length extra).trans (Nat.eq_of_beq_eq_true rfl : 9 = dext 21), extra_lt extra⟩
theorem dist22 (extra : BitVec 10) : Statement (.dist22 extra) :=
  ⟨nofun, nofun, fun _ => Nat.le_of_ble_eq_true rfl, nofun,
    fun _ _ => (fieldBits_length extra).trans (Nat.eq_of_beq_eq_true rfl : 10 = dext 22), extra_lt extra⟩
theorem dist23 (extra : BitVec 10) : Statement (.dist23 extra) :=
  ⟨nofun, nofun, fun _ => Nat.le_of_ble_eq_true rfl, nofun,
    fun _ _ => (fieldBits_length extra).trans (Nat.eq_of_beq_eq_true rfl : 10 = dext 23), extra_lt extra⟩
theorem dist24 (extra : BitVec 11) : Statement (.dist24 extra) :=
  ⟨nofun, nofun, fun _ => Nat.le_of_ble_eq_true rfl, nofun,
    fun _ _ => (fieldBits_length extra).trans (Nat.eq_of_beq_eq_true rfl : 11 = dext 24), extra_lt extra⟩
theorem dist25 (extra : BitVec 11) : Statement (.dist25 extra) :=
  ⟨nofun, nofun, fun _ => Nat.le_of_ble_eq_true rfl, nofun,
    fun _ _ => (fieldBits_length extra).trans (Nat.eq_of_beq_eq_true rfl : 11 = dext 25), extra_lt extra⟩
theorem dist26 (extra : BitVec 12) : Statement (.dist26 extra) :=
  ⟨nofun, nofun, fun _ => Nat.le_of_ble_eq_true rfl, nofun,
    fun _ _ => (fieldBits_length extra).trans (Nat.eq_of_beq_eq_true rfl : 12 = dext 26), extra_lt extra⟩
theorem dist27 (extra : BitVec 12) : Statement (.dist27 extra) :=
  ⟨nofun, nofun, fun _ => Nat.le_of_ble_eq_true rfl, nofun,
    fun _ _ => (fieldBits_length extra).trans (Nat.eq_of_beq_eq_true rfl : 12 = dext 27), extra_lt extra⟩
theorem dist28 (extra : BitVec 13) : Statement (.dist28 extra) :=
  ⟨nofun, nofun, fun _ => Nat.le_of_ble_eq_true rfl, nofun,
    fun _ _ => (fieldBits_length extra).trans (Nat.eq_of_beq_eq_true rfl : 13 = dext 28), extra_lt extra⟩
theorem dist29 (extra : BitVec 13) : Statement (.dist29 extra) :=
  ⟨nofun, nofun, fun _ => Nat.le_of_ble_eq_true rfl, nofun,
    fun _ _ => (fieldBits_length extra).trans (Nat.eq_of_beq_eq_true rfl : 13 = dext 29), extra_lt extra⟩
theorem distInvalid30 : Statement (.distInvalid30) :=
  ⟨nofun, nofun, fun _ => Nat.le_of_ble_eq_true rfl, nofun,
    fun _ h => absurd h (by decide), Nat.one_pos⟩
theorem distInvalid31 : Statement (.distInvalid31) :=
  ⟨nofun, nofun, fun _ => Nat.le_of_ble_eq_true rfl, nofun,
    fun _ h => absurd h (by decide), Nat.one_pos⟩

end Sys2Proof.Laws.Extra
end

