-- ==== Sys2Proof/Tests/Slice0.lean ====
section
/-! SUPPORT. Tests: words written out from the spec's encodings, one-step results from the spec's examples, and for every
statement a witness of its hypotheses. Each expected value comes from the spec place named beside it. -/

namespace Sys2Proof.Tests

open Sys2Proof Sys2Proof.Machine

/-! ### Helpers -/

/-- The state after START with `inp`, in phase `p` (70_reset_and_hazards.md R501). -/
def at' (p : Phase) (inp : List Byte) : State := { State.reset with phase := p, input := some inp }

/-- The same with `held` already output. -/
def holding (p : Phase) (held : List Byte) (inp : List Byte) : State :=
  held.foldl (fun s b => appendByte b s) (at' p inp)

/-- A fresh reader. -/
def fresh : BitReader := BitReader.fresh 0

/-- The element the decoder reads from bits in transmission order. -/
def readBits (c : Context) (bits : List Bool) : Option Instr :=
  match decodeElement c (packBits bits) fresh with
  | .ok (.ok i) _ => some i
  | _ => none

/-- The next state, or the state itself where there is none. -/
def next (o : Result) (s : State) : State :=
  match o with
  | .next t => t
  | _ => s

/-! ### WellFormed: one ill-formed term for each check (30_encoding.md R159, R160, R161, R162, R164) -/

theorem test_wf_reserved_block_refused : (Instr.blockReserved true).wellFormed = false := by decide
theorem test_wf_nlen_refused : (Instr.storedHdr 5#16 0xFEFA#16).wellFormed = false := by decide
theorem test_wf_hlit_refused : (Instr.dynHdr 30#5 0#5 0#4).wellFormed = false := by decide
theorem test_wf_litlen_refused : Instr.llInvalid286.wellFormed = false ∧ Instr.llInvalid287.wellFormed = false := by decide
theorem test_wf_dist_refused : Instr.distInvalid30.wellFormed = false ∧ Instr.distInvalid31.wellFormed = false := by decide
theorem test_wf_legal : (Instr.storedHdr 5#16 0xFFFA#16).wellFormed = true ∧ (Instr.dynHdr 29#5 31#5 15#4).wellFormed = true ∧
    (Instr.dist29 8191#13).wellFormed = true := by decide

/-! ### Decoding: words from the spec's encodings, first bit fetched on the left -/

/-- 30_encoding.md R141: BFINAL, BTYPE[0], BTYPE[1]. -/
theorem test_decode_block_headers :
    readBits .header [true, false, false] = some (.blockStored true) ∧
    readBits .header [true, true, false] = some (.blockFixed true) ∧
    readBits .header [false, false, true] = some (.blockDynamic false) ∧
    readBits .header [true, true, true] = some (.blockReserved true) := by decide

/-- 95_test_vectors.md P1: bytes 05 00 FA FF. -/
theorem test_decode_stored_header :
    decodeElement .storedHeader [0x01#8, 0x05#8, 0x00#8, 0xFA#8, 0xFF#8] { byte := 0#8, cnt := 5, consumed := 1, exh := false } =
      .ok (.ok (.storedHdr 5#16 0xFFFA#16)) { byte := 0#8, cnt := 0, consumed := 5, exh := false } := by decide

/-- 95_test_vectors.md P1: BYTE 48 is 00010010. -/
theorem test_decode_stored_byte :
    readBits .storedByte [false, false, false, true, false, false, true, false] = some (.storedByte 0x48#8) := by decide

/-- 95_test_vectors.md P3: DYNHDR hlit=2 hdist=0 hclen=14 is 01000 00000 0111. -/
theorem test_decode_dynamic_header :
    readBits .dynHeader ([false, true, false, false, false] ++ [false, false, false, false, false] ++
      [false, true, true, true]) = some (.dynHdr 2#5 0#5 14#4) := by decide

/-- 95_test_vectors.md P6: CLL 1 is 100. -/
theorem test_decode_code_length : readBits .clLength [true, false, false] = some (.clLength 1#3) := by decide

/-- 95_test_vectors.md P6: its code-length tree is 2 = 0, 16 = 10, 18 = 11. -/
def p6Tree : Trie := .node (.leaf 2) (.node (.leaf 16) (.leaf 18))

/-- 95_test_vectors.md P6: CL 2 is 0, CL 16 extra=1 is 10 10, CL 18 extra=85 is 11 1010101. -/
theorem test_decode_code_length_symbols :
    readBits (.clSymbol p6Tree true) [false] = some (.clLen 2#4) ∧
    readBits (.clSymbol p6Tree true) [true, false, true, false] = some (.clRepPrev 1#2) ∧
    readBits (.clSymbol p6Tree true) [true, true, true, false, true, false, true, false, true] = some (.clRepZeroLong 85#7) ∧
    readBits (.clSymbol (.single 17) true) [false, true, false, true] = some (.clRepZeroShort 5#3) := by decide

/-- 30_encoding.md R153: literals 0, 97, 143, 144, 255 and EOB. -/
theorem test_decode_literals :
    readBits (.litLen fixedLitLen) [false, false, true, true, false, false, false, false] = some (.lit 0#8) ∧
    readBits (.litLen fixedLitLen) [true, false, false, true, false, false, false, true] = some (.lit 97#8) ∧
    readBits (.litLen fixedLitLen) [true, false, true, true, true, true, true, true] = some (.lit 143#8) ∧
    readBits (.litLen fixedLitLen) [true, true, false, false, true, false, false, false, false] = some (.lit 144#8) ∧
    readBits (.litLen fixedLitLen) [true, true, true, true, true, true, true, true, true] = some (.lit 255#8) ∧
    readBits (.litLen fixedLitLen) [false, false, false, false, false, false, false] = some .eob := by
  decide +kernel

/-- The fixed code of each length code (30_encoding.md R153) and an extra value, bit 0 first (R156). -/
def lengthWords : List (List Bool × Instr) :=
  [([false, false, false, false, false, false, true], .len257),
   ([false, false, false, false, false, true, false], .len258),
   ([false, false, false, false, false, true, true], .len259),
   ([false, false, false, false, true, false, false], .len260),
   ([false, false, false, false, true, false, true], .len261),
   ([false, false, false, false, true, true, false], .len262),
   ([false, false, false, false, true, true, true], .len263),
   ([false, false, false, true, false, false, false], .len264),
   ([false, false, false, true, false, false, true, true], .len265 1#1),
   ([false, false, false, true, false, true, false, true], .len266 1#1),
   ([false, false, false, true, false, true, true, true], .len267 1#1),
   ([false, false, false, true, true, false, false, true], .len268 1#1),
   ([false, false, false, true, true, false, true, false, true], .len269 2#2),
   ([false, false, false, true, true, true, false, true, false], .len270 1#2),
   ([false, false, false, true, true, true, true, false, true], .len271 2#2)] ++
  [([false, false, true, false, false, false, false, true, false], .len272 1#2),
   ([false, false, true, false, false, false, true, false, true, false], .len273 2#3),
   ([false, false, true, false, false, true, false, false, false, true], .len274 4#3),
   ([false, false, true, false, false, true, true, false, true, true], .len275 6#3),
   ([false, false, true, false, true, false, false, true, false, false], .len276 1#3),
   ([false, false, true, false, true, false, true, false, true, false, false], .len277 2#4),
   ([false, false, true, false, true, true, false, false, false, true, true], .len278 12#4),
   ([false, false, true, false, true, true, true, false, true, true, false], .len279 6#4),
   ([true, true, false, false, false, false, false, false, true, false, false, false], .len280 1#4),
   ([true, true, false, false, false, false, false, true, false, true, false, true, false], .len281 10#5),
   ([true, true, false, false, false, false, true, false, false, false, true, false, false], .len282 4#5),
   ([true, true, false, false, false, false, true, true, false, true, true, true, true], .len283 30#5),
   ([true, true, false, false, false, true, false, false, false, false, false, true, true], .len284 24#5),
   ([true, true, false, false, false, true, false, true], .len285)]

theorem test_decode_length_codes : ∀ w ∈ lengthWords, readBits (.litLen fixedLitLen) w.1 = some w.2 := by decide +kernel

/-- The fixed code of each distance code (30_encoding.md R154) and an extra value, bit 0 first (R156). -/
def distanceWords : List (List Bool × Instr) :=
  [([false, false, false, false, false], .dist0),
   ([false, false, false, false, true], .dist1),
   ([false, false, false, true, false], .dist2),
   ([false, false, false, true, true], .dist3),
   ([false, false, true, false, false, true], .dist4 1#1),
   ([false, false, true, false, true, true], .dist5 1#1),
   ([false, false, true, true, false, true, false], .dist6 1#2),
   ([false, false, true, true, true, false, true], .dist7 2#2),
   ([false, true, false, false, false, true, true, true], .dist8 7#3),
   ([false, true, false, false, true, false, false, true], .dist9 4#3),
   ([false, true, false, true, false, true, false, false, false], .dist10 1#4),
   ([false, true, false, true, true, false, true, true, false], .dist11 6#4),
   ([false, true, true, false, false, true, true, false, true, true], .dist12 27#5),
   ([false, true, true, false, true, false, false, false, false, true], .dist13 16#5),
   ([false, true, true, true, false, true, false, true, false, false, false], .dist14 5#6)] ++
  [([false, true, true, true, true, false, true, false, true, true, true], .dist15 58#6),
   ([true, false, false, false, false, true, true, true, true, false, true, true], .dist16 111#7),
   ([true, false, false, false, true, false, false, true, false, false, true, false], .dist17 36#7),
   ([true, false, false, true, false, true, false, false, true, true, false, true, true], .dist18 217#8),
   ([true, false, false, true, true, false, true, true, true, false, false, false, true], .dist19 142#8),
   ([true, false, true, false, false, true, true, false, false, false, false, true, false, false], .dist20 67#9),
   ([true, false, true, false, true, false, false, false, true, true, true, true, true, false], .dist21 248#9),
   ([true, false, true, true, false, true, false, true, true, false, true, false, true, true, true], .dist22 941#10),
   ([true, false, true, true, true, false, true, false, false, false, true, true, false, false, true], .dist23 610#10),
   ([true, true, false, false, false, true, true, true, false, true, false, false, false, true, false, true], .dist24 1303#11),
   ([true, true, false, false, true, false, false, true, true, false, false, true, true, true, true, false], .dist25 972#11),
   ([true, true, false, true, false, true, false, false, false, false, false, false, true, false, true, false, false], .dist26 641#12),
   ([true, true, false, true, true, false, true, true, false, true, true, false, false, true, false, false, true], .dist27 2358#12),
   ([true, true, true, false, false, true, true, false, true, false, true, true, true, true, true, true, true, true], .dist28 8171#13),
   ([true, true, true, false, true, false, false, false, false, false, true, false, true, false, true, true, false, true], .dist29 5792#13)]

theorem test_decode_distance_codes : ∀ w ∈ distanceWords, readBits (.dist fixedDist) w.1 = some w.2 := by decide +kernel

/-- Symbols 286, 287, 30 and 31 have no fixed code (30_encoding.md R161, R162): read here from a tree of one leaf. -/
theorem test_decode_illegal_symbols :
    readBits (.litLen (.single 286)) [false] = some .llInvalid286 ∧
    readBits (.litLen (.single 287)) [false] = some .llInvalid287 ∧
    readBits (.dist (.single 30)) [false] = some .distInvalid30 ∧
    readBits (.dist (.single 31)) [false] = some .distInvalid31 := by decide

/-- 95_test_vectors.md H8, H10: the prefixes 1100011 and 1111 have no leaf, and are rejected after 7 and 4 bits. -/
theorem test_decode_rejects_unassigned_codes :
    decodeElement (.litLen fixedLitLen) [0x63#8] fresh =
      .ok (.error .litLenInvalidCode) { byte := 0#8, cnt := 1, consumed := 1, exh := false } ∧
    decodeElement (.dist fixedDist) [0x0F#8] fresh =
      .ok (.error .distInvalidCode) { byte := 0#8, cnt := 4, consumed := 1, exh := false } := by decide +kernel

/-- 46_dynamic_header.md R339: symbol 16 with no previous length takes its code and no extra bit. -/
theorem test_decode_first_repeat_takes_no_extra :
    decodeElement (.clSymbol (.single 16) false) [0x06#8] fresh =
      .ok (.ok (.clRepPrev 0#2)) { byte := 3#8, cnt := 7, consumed := 1, exh := false } := by decide

/-- The table's numbers through the decoder (log 10). -/
theorem test_table_words : decodeTableWord 16 283 = some (.len283 0#5) ∧ decodeTableWord 8 31 = some .distInvalid31 ∧
    decodeTableWord 16 287 = some .llInvalid287 ∧ decodeTableWord 16 29 = some (.dist29 0#13) := by decide +kernel

/-- A placed element is the one the next step runs. -/
theorem test_fetch_word_runs :
    (next (step (State.reset.withFetchWord 16 65)) State.reset).sink.out = [65#8] ∧
    (next (step (State.reset.withFetchWord 8 2)) State.reset).phase = .sym := by decide +kernel

/-! ### Encoding -/

/-- 95_test_vectors.md P2: LEN 263 is 0000111; P7: DYNHDR hlit=1 hdist=30 hclen=14 is 10000 01111 0111. -/
theorem test_encode_words :
    encode (.litLen fixedLitLen) .len263 = some [false, false, false, false, true, true, true] ∧
    encode .dynHeader (.dynHdr 1#5 30#5 14#4) = some ([true, false, false, false, false] ++
      [false, true, true, true, true] ++ [false, true, true, true]) := by decide +kernel

/-! ### BitReader (95_test_vectors.md 3.1) -/

theorem test_b1_b2_b3 :
    fetchBits [0xB5#8, 0x3C#8] 3 fresh = .ok 5#3 { byte := 0x16#8, cnt := 5, consumed := 1, exh := false } ∧
    fetchBits [0xB5#8, 0x3C#8] 7 { byte := 0x16#8, cnt := 5, consumed := 1, exh := false } =
      .ok 22#7 { byte := 0x0F#8, cnt := 6, consumed := 2, exh := false } ∧
    (moveToByteBoundary { byte := 0x0F#8, cnt := 6, consumed := 2, exh := false }).cnt = 0 := by decide

theorem test_b4_b9 :
    fetchBit [0xB5#8, 0x3C#8] { byte := 0#8, cnt := 0, consumed := 2, exh := false } =
      .exhausted { byte := 0#8, cnt := 0, consumed := 2, exh := true } ∧
    fetchBits [0x01#8] 0 fresh = .ok 0#0 fresh ∧
    (∃ r, fetchBits [0xFF#8] 9 fresh = .exhausted r) := ⟨by decide, by decide, _, rfl⟩

/-! ### CRC-32 (42_crc32.md R220, R224, 95_test_vectors.md 3.2) -/

theorem test_crc_table : crcT 0#8 = 0x00000000#32 ∧ crcT 1#8 = 0x77073096#32 ∧ crcT 2#8 = 0xEE0E612C#32 ∧
    crcT 128#8 = 0xEDB88320#32 ∧ crcT 255#8 = 0x2D02EF8D#32 := by decide

theorem test_crc_check_value :
    crcOf [0x31#8, 0x32#8, 0x33#8, 0x34#8, 0x35#8, 0x36#8, 0x37#8, 0x38#8, 0x39#8] = 0xCBF43926#32 := by decide +kernel

/-! ### Huffman trees (95_test_vectors.md 3.3) -/

/-- H1. -/
theorem test_h1 : (build [3, 3, 3, 3, 3, 2, 4, 4] []).bind (Trie.codeOf 4 ·) = some [true, true, false] ∧
    (build [3, 3, 3, 3, 3, 2, 4, 4] []).bind (Trie.codeOf 6 ·) = some [true, true, true, false] := by decide

/-- H2, H4. -/
theorem test_h2_h4 : build [1, 1, 1] [] = none ∧ build [0, 0] [] = some .empty := by decide

/-- H6, H7: 144 is 110010000, 285 is 11000101; 286 has no code. -/
theorem test_h6_h7 : fixedLitLen.codeOf 144 = some [true, true, false, false, true, false, false, false, false] ∧
    fixedLitLen.codeOf 285 = some [true, true, false, false, false, true, false, true] ∧
    fixedLitLen.codeOf 286 = none := by decide +kernel

/-! ### Operand tables (30_encoding.md R151, R152): the constructors' extra bits are those of the tables -/

theorem test_tables : lbase 284 = 227 ∧ lext 284 = 5 ∧ lbase 285 = 258 ∧ lext 285 = 0 ∧ dbase 29 = 24577 ∧ dext 29 = 13 ∧
    orderTable[3]? = some 0 ∧ orderTable[18]? = some 15 := by decide

/-! ### Meanings: one step each -/

/-- 95_test_vectors.md F4. -/
theorem test_reserved_block_fails : (next (step (at' .hdr [0x07#8])) State.reset).failCause = .btypeReserved := by decide

/-- 45_block_fsm.md R301 example: 01 gives BFINAL 1, STORED_HDR, BR_CNT 5. -/
theorem test_stored_block_header :
    let t := next (step (at' .hdr [0x01#8])) State.reset
    t.bfinal = true ∧ t.btype = 0 ∧ t.phase = .storedHdr ∧ t.br.cnt = 5 := by decide

/-- 45_block_fsm.md R306 example. -/
theorem test_stored_header :
    let t := next (exec (.storedHdr 5#16 0xFFFA#16) (at' .storedHdr [])) State.reset
    t.stLen = 5 ∧ t.stNlen = 0xFFFA#16 ∧ t.stRem = 5 ∧ t.phase = .storedCopy := by decide

/-- 45_block_fsm.md R307 example. -/
theorem test_stored_header_mismatch :
    (next (exec (.storedHdr 5#16 0xFEFA#16) (at' .storedHdr [])) State.reset).failCause = .storedNlenMismatch := by decide

/-- 45_block_fsm.md R308 example: ST_REM 5, byte 0x48. -/
theorem test_stored_byte :
    let t := next (step { at' .storedCopy [0x48#8] with stRem := 5 }) State.reset
    t.sink.out = [0x48#8] ∧ t.stRem = 4 ∧ t.phase = .storedCopy := by decide +kernel

/-- 46_dynamic_header.md R331: HLIT 29 is the last legal value. -/
theorem test_dynamic_header_bound :
    (next (exec (.dynHdr 29#5 31#5 15#4) (at' .dynHdr [])) State.reset).phase = .dynCll ∧
    (next (exec (.dynHdr 30#5 0#5 0#4) (at' .dynHdr [])) State.reset).failCause = .hlitTooLarge := by decide +kernel

/-- 46_dynamic_header.md R333 example: with HCLEN 0 the fourth field is the length of symbol 0, and the last. -/
theorem test_code_length_field :
    let t := next (exec (.clLength 2#3) { at' .dynCll [] with clIdx := 3 }) State.reset
    t.clLen[0] = 2 ∧ t.clIdx = 4 ∧ t.phase = .dynClBuild := by decide +kernel

/-- 46_dynamic_header.md R335 example: lengths 1 for symbols 16, 17 and 18 over-subscribe. -/
theorem test_code_length_tree_oversubscribed :
    (next (step { at' .dynClBuild [] with
      clLen := (((Vector.replicate 19 0).setIfInBounds 16 1).setIfInBounds 17 1).setIfInBounds 18 1 })
      State.reset).failCause = .codeOversubscribed := by decide +kernel

/-- 95_test_vectors.md P6: the 16 at LENS_IDX 258 repeats LENS[257] = 2 four times, into the distance lengths. -/
theorem test_repeat_crosses_the_boundary :
    let s := { at' .dynLens [] with hlit := 1, hdist := 3, lensIdx := 258, lens := (Vector.replicate 318 0).setIfInBounds 257 2 }
    let t := next (exec (.clRepPrev 1#2) s) State.reset
    t.lens[258] = 2 ∧ t.lens[261] = 2 ∧ t.lens[262] = 0 ∧ t.lensIdx = 262 ∧ t.phase = .dynBuild := by decide +kernel

/-- 46_dynamic_header.md R339 and R342: no previous length; 138 + 138 > 258. -/
theorem test_repeat_failures :
    (next (exec (.clRepPrev 3#2) (at' .dynLens [])) State.reset).failCause = .clRepeatNoPrevious ∧
    (next (exec (.clRepZeroLong 127#7) { at' .dynLens [] with lensIdx := 138 }) State.reset).failCause =
      .clRepeatOverrun := by decide +kernel

/-- 46_dynamic_header.md R335, R343: the empty code-length tree fails the first DYN_LENS step. -/
theorem test_code_length_code_without_leaf :
    (next (step { at' .dynLens [0#8] with treeCl := .empty }) State.reset).failCause = .clInvalidCode := by decide +kernel

/-- 46_dynamic_header.md R344: the split is at HLIT + 257 (lengths 256 and 257 are 1 here: one in each tree for HLIT 0). -/
theorem test_block_trees :
    let s := { at' .dynBuild [] with
      lens := ((Vector.replicate 318 0).setIfInBounds 256 1).setIfInBounds 257 1, useFixed := true }
    let t := next (step s) State.reset
    t.treeLl = .single 256 ∧ t.treeD = .single 0 ∧ t.useFixed = false ∧ t.phase = .sym := by decide +kernel

/-- 44_window.md R271 example, 42_crc32.md R221 example. -/
theorem test_literal :
    let t := next (exec (.lit 0x61#8) (at' .sym [])) State.reset
    t.sink.ram = [(0, 0x61#8)] ∧ t.sink.wp = 1 ∧ t.sink.held = 1 ∧ t.sink.total = 1 ∧ t.sink.crc = 0xE8B7BE43#32 := by decide

/-- 47_symbols.md R362: EOB of a final block and of another. -/
theorem test_end_of_block :
    (next (exec .eob { at' .sym [] with bfinal := true }) State.reset).phase = .done ∧
    (next (exec .eob (at' .sym [])) State.reset).phase = .hdr := by decide

/-- 47_symbols.md R369, R370, R379 examples. -/
theorem test_lengths :
    (next (exec (.len284 31#5) (at' .sym [])) State.reset).matchLen = some 258 ∧
    (next (exec .len285 (at' .sym [])) State.reset).matchLen = some 258 ∧
    (next (exec (.len268 1#1) (at' .sym [])) State.reset).matchLen = some 18 := by decide

/-- 44_window.md R276: "abc" and a copy with d = 3 and len = 9. -/
theorem test_copy_repeats :
    (next (exec .dist2 { holding .sym [0x61#8, 0x62#8, 0x63#8] [] with matchLen := some 9 }) State.reset).sink.out =
      [0x61#8, 0x62#8, 0x63#8, 0x61#8, 0x62#8, 0x63#8, 0x61#8, 0x62#8, 0x63#8, 0x61#8, 0x62#8, 0x63#8] := by decide +kernel

/-- 47_symbols.md R374 example: c = 4 with e = 1 gives d = 6: five bytes held are one too few, six are enough. -/
theorem test_distance_bound :
    (next (exec (.dist4 1#1) { holding .sym [1#8, 2#8, 3#8, 4#8, 5#8] [] with matchLen := some 3 }) State.reset).failCause =
      .invalidBackReference ∧
    (next (exec (.dist4 1#1) { holding .sym [1#8, 2#8, 3#8, 4#8, 5#8, 6#8] [] with matchLen := some 3 })
      State.reset).sink.out = [1#8, 2#8, 3#8, 4#8, 5#8, 6#8, 1#8, 2#8, 3#8] := by decide +kernel

/-- 95_test_vectors.md P7: distance symbol 30. -/
theorem test_distance_symbol_30 :
    (next (exec .distInvalid30 { at' .sym [] with matchLen := some 3 }) State.reset).failCause = .distSymbolRange := by decide

/-- 47_symbols.md R377: a length code with an empty distance tree; R371: a literal/length code without a leaf. -/
theorem test_codes_without_leaf :
    (next (step { at' .sym [0#8] with treeLl := .single 257, treeD := .empty }) State.reset).failCause = .distInvalidCode ∧
    (next (step { at' .sym [1#8] with treeLl := .single 257 }) State.reset).failCause = .litLenInvalidCode := by decide +kernel

/-- One SYM step takes a whole length/distance pair: 95_test_vectors.md P2, LEN 257 and DIST 2 after "abc". -/
theorem test_pair_in_one_step :
    let s := { holding .sym [0x61#8, 0x62#8, 0x63#8] (packBits [false, false, false, false, false, false, true,
      false, false, false, true, false]) with useFixed := true }
    let t := next (step s) State.reset
    t.sink.out = [0x61#8, 0x62#8, 0x63#8, 0x61#8, 0x62#8, 0x63#8] ∧ t.matchLen = none ∧ t.phase = .sym := by decide +kernel

/-! ### Host models (95_test_vectors.md 3.9, 3.10): the cases that end before the block runs -/

/-- G3, G5, G6. -/
theorem test_member_headers :
    parseHeader [0x1F#8, 0x8B#8] 0 = .error .streamExhausted ∧
    parseHeader [0x1F#8, 0x8B#8, 0x07#8, 0#8] 0 = .error .structuralViolation ∧
    parseHeader [0x1F#8, 0x8B#8, 0x08#8, 0x20#8] 0 = .error .structuralViolation := ⟨rfl, rfl, rfl⟩

/-- G11: FNAME "a" is skipped; G12: FEXTRA of two bytes. -/
theorem test_member_optional_fields :
    parseHeader [0x1F#8, 0x8B#8, 8#8, 8#8, 0#8, 0#8, 0#8, 0#8, 0#8, 0xFF#8, 0x61#8, 0#8, 3#8, 0#8] 0 = .ok 12 ∧
    parseHeader [0x1F#8, 0x8B#8, 8#8, 4#8, 0#8, 0#8, 0#8, 0#8, 0#8, 0xFF#8, 2#8, 0#8, 0xAB#8, 0xCD#8, 3#8, 0#8] 0 =
      .ok 14 := ⟨rfl, rfl⟩

/-- N4, N5, N6. -/
theorem test_scan_without_members :
    let cfg : ScanConfig := { outExt := "", readable := true, dirCreatable := true, blocked := [] }
    scan cfg [0x1F#8, 0x8B#8] State.reset = .done [{ offset := 0, headerValid := false, fileValid := false }] [] ∧
    scan cfg [0x1F#8, 0x1F#8, 0x8B#8] State.reset = .done [{ offset := 1, headerValid := false, fileValid := false }] [] ∧
    scan cfg [0#8, 0#8] State.reset = .done [] [] := by decide +kernel

/-! ### Witnesses: for every statement with hypotheses, a concrete state and operands that meet them -/

/-- The three bytes "abc" held, in SYM of a fixed block, with `bits` to come. -/
def abc (bits : List Bool) : State :=
  { holding .sym [0x61#8, 0x62#8, 0x63#8] (packBits bits) with useFixed := true }

/-- Length code 257 and distance code 2, in fixed codes (95_test_vectors.md P2). -/
def pairBits : List Bool := [false, false, false, false, false, false, true, false, false, false, true, false]

/-- The answer is a next state. -/
def isNext : Result → Bool
  | .next _ => true
  | _ => false

theorem exists_of_isNext {o : Result} (h : isNext o = true) : ∃ t, o = .next t := by
  cases o with
  | next t => exact ⟨t, rfl⟩
  | _ => cases h

/-- A fresh reader can deliver. -/
theorem fresh_ready (inp : List Byte) (h : inp.length < 2 ^ 32) : ReaderReady inp fresh := ⟨rfl, by decide, h⟩

/-- The state after START meets the invariant. -/
theorem hdr_inv : (at' .hdr [3#8, 0#8]).Inv where
  ram_wf := by decide
  no_pending := rfl
  status := by unfold StatusInv; decide
  reader := fun _ => ⟨by decide, rfl, by decide, by decide, fun _ => rfl⟩
  sink := fun _ => ⟨[], [], rfl, rfl, rfl, rfl, rfl, fun _ h => absurd h (Nat.not_lt_zero _)⟩
  header := fun _ => trivial

/-- So does a SYM state that holds "abc". -/
theorem abc_inv : (abc pairBits).Inv where
  ram_wf := by decide +kernel
  no_pending := by decide +kernel
  status := by unfold StatusInv; decide +kernel
  reader := fun _ => ⟨by decide +kernel, by decide +kernel, by decide +kernel, by decide +kernel, fun _ => by decide +kernel⟩
  sink := fun _ => ⟨[], [0x61#8, 0x62#8, 0x63#8], by decide +kernel, by decide +kernel, by decide +kernel, by decide +kernel,
    by decide +kernel, by decide +kernel⟩
  header := fun _ => by show True; trivial

theorem abc_steps : ∃ t, step (abc pairBits) = .next t :=
  exists_of_isNext (by decide +kernel)

theorem witness_step_keeps_invariant :
    ((at' .hdr [3#8, 0#8]).Inv ∧ ∃ t, step (at' .hdr [3#8, 0#8]) = .next t) ∧
    ((abc pairBits).Inv ∧ ∃ t, step (abc pairBits) = .next t) :=
  ⟨⟨hdr_inv, _, rfl⟩, abc_inv, abc_steps⟩

theorem witness_host_write_keeps_invariant :
    (abc pairBits).Inv ∧ (∃ t, hostWrite 0 1#32 [] (abc pairBits) = .next t) ∧
    (∃ t, hostWrite 0 2#32 [3#8, 0#8] (abc pairBits) = .next t) ∧ (∃ t, hostWrite 4 1#32 [] (abc pairBits) = .next t) :=
  ⟨abc_inv, ⟨_, rfl⟩, ⟨_, rfl⟩, _, rfl⟩

theorem witness_commands :
    ((2#32).getLsbD 0 = false ∧ (2#32).getLsbD 1 = true ∧ ([] : List Byte).length < 2 ^ 32) ∧
    ((1#32).getLsbD 0 = true ∧ (3#32).getLsbD 0 = true) ∧ ((0#32).getLsbD 0 = false ∧ (0#32).getLsbD 1 = false) := by decide

/-- A launch of exactly 2^32 bytes. -/
theorem witness_long_launch : ∃ launch : List Byte, 2 ^ 32 ≤ launch.length :=
  ⟨List.replicate (2 ^ 32) 0#8, (List.length_replicate ..).ge⟩

theorem witness_other_offsets : (0x14 : Nat) ∉ [0x04, 0x08, 0x0C, 0x10] ∧ (0 : Nat) ∉ [0x04, 0x08, 0x0C, 0x10] ∧
    (0x04 : Nat) ≠ 0 := by decide

theorem witness_live_phases : (at' .hdr []).phase.live = true ∧ (at' .sym []).phase.live = true ∧
    (at' .dynBuild []).phase.live = true := by decide

theorem witness_waiting_phases : State.reset.phase = .idle ∧ (at' .done []).phase = .done ∧
    (at' .failed []).phase = .failed := by decide

theorem witness_start : Memory.wf State.reset.sink.ram ∧ Memory.wf (abc pairBits).sink.ram ∧ (∃ t, startCommand [3#8, 0#8] State.reset = .next t) ∧
    (∃ t, startCommand [] State.reset = .next t) ∧ (∃ t, startCommand [3#8, 0#8] (abc pairBits) = .next t) :=
  ⟨by decide, by decide +kernel, ⟨_, rfl⟩, ⟨_, rfl⟩, _, rfl⟩

/-- The reader after the seven bits of the length code: one bit of the byte 0x40 left. -/
def afterLength : BitReader := { byte := 0#8, cnt := 1, consumed := 1, exh := false }

/-- The state between the two halves of the pair. -/
def pendingPair : State := { (abc pairBits).withReader afterLength with matchLen := some 3 }

/-- Outside SYM; a literal; a pair. -/
theorem witness_step_runs_decoded :
    ((at' .hdr [3#8]).phase ≠ .sym ∧ elementContext (at' .hdr [3#8]) = some .header ∧
      ∃ r, decodeElement .header (at' .hdr [3#8]).inBytes (at' .hdr [3#8]).br = .ok (.ok (.blockFixed true)) r) ∧
    ((abc [false, false, false, false, false, false, false]).phase = .sym ∧
      (abc [false, false, false, false, false, false, false]).matchLen = none ∧ ¬ (257 ≤ Instr.eob.symbol) ∧
      decodeElement (.litLen (litLenTree (abc [false, false, false, false, false, false, false]))) [0#8] fresh =
        .ok (.ok .eob) { byte := 0#8, cnt := 1, consumed := 1, exh := false }) ∧
    ((abc pairBits).phase = .sym ∧ (abc pairBits).matchLen = none ∧ 257 ≤ Instr.len257.symbol ∧
      Instr.len257.symbol ≤ 285 ∧
      decodeElement (.litLen (litLenTree (abc pairBits))) (abc pairBits).inBytes (abc pairBits).br =
        .ok (.ok .len257) afterLength ∧
      exec .len257 ((abc pairBits).withReader afterLength) = .next pendingPair ∧
      decodeElement (.dist (distTree pendingPair)) pendingPair.inBytes pendingPair.br =
        .ok (.ok .dist2) { byte := 0#8, cnt := 4, consumed := 2, exh := false }) :=
  ⟨⟨by decide, rfl, _, rfl⟩, by decide +kernel, by decide +kernel, by decide +kernel, by decide, by decide,
    by decide +kernel, rfl, by decide +kernel⟩

/-- The fixed code 1100011 with no leaf; a header cut short. -/
theorem witness_undecodable :
    (elementContext (abc [true, true, false, false, false, true, true]) = some (.litLen fixedLitLen) ∧
      decodeElement (.litLen fixedLitLen) (abc [true, true, false, false, false, true, true]).inBytes fresh =
        .ok (.error .litLenInvalidCode) { byte := 0#8, cnt := 1, consumed := 1, exh := false }) ∧
    (elementContext (at' .hdr []) = some .header ∧ ∃ r, decodeElement .header (at' .hdr []).inBytes fresh = .exhausted r) :=
  ⟨by decide +kernel, rfl, _, rfl⟩

/-- A SYM state of a dynamic block with the given trees and reader. -/
def dynamicBlock (ll d : Trie) (br : BitReader) (inp : List Byte) : State :=
  { at' .sym inp with treeLl := ll, treeD := d, br := br }

/-- A reader with `n` bits left of the one byte of IN, all 0. -/
def lastBits (n : BitVec 4) : BitReader := { byte := 0#8, cnt := n, consumed := 1, exh := false }

/-- Length code 257, whose code is 0, has been read and two bits are left. -/
theorem dynamic_length_read (d : Trie) :
    LengthRead (dynamicBlock (.single 257) d (lastBits 3) [0#8]) .len257 (lastBits 2) :=
  ⟨rfl, rfl, ⟨rfl, (by decide : (3#4).toNat ≤ 7), (by decide : [0#8].length < 2 ^ 32)⟩, by decide, by decide,
    (by decide : decodeElement (.litLen (.single 257)) [0#8] (lastBits 3) = .ok (.ok .len257) (lastBits 2))⟩

/-- Paths without a leaf in each tree: the empty code-length tree, symbol 0 alone, the empty distance tree. -/
theorem witness_leads_out :
    (ReaderReady [1#8] fresh ∧ upcoming [1#8] fresh = [true] ++ List.replicate 7 false ∧ Trie.empty.leadsOut [true] = true ∧
      { at' .dynLens [1#8] with treeCl := .empty }.phase = .dynLens) ∧
    ((Trie.single 0).leadsOut [true] = true ∧ fixedLitLen.leadsOut [true, true, false, false, false, true, true] = true ∧
      fixedDist.leadsOut [true, true, true, true] = true) ∧
    (LengthRead (dynamicBlock (.single 257) .empty (lastBits 3) [0#8]) .len257 (lastBits 2) ∧
      upcoming [0#8] (lastBits 2) = [false] ++ [false] ∧ Trie.empty.leadsOut [false] = true) :=
  ⟨⟨fresh_ready _ (by decide), by decide, by decide, rfl⟩, by decide +kernel, dynamic_length_read _, by decide, by decide⟩

/-- A header cut after two bits, a stored header with no byte, distance symbol 8 (code 0, three extra bits) cut in its
extra bits. -/
theorem witness_truncated :
    (elementContext { at' .hdr [1#8] with br := lastBits 2 } = some .header ∧ ReaderReady [1#8] (lastBits 2) ∧
      encode .header (.blockStored false) = some [false, false, false] ∧
      upcoming [1#8] (lastBits 2) = [false, false]) ∧
    (elementContext (at' .storedHdr []) = some .storedHeader ∧ upcoming [] (moveToByteBoundary fresh) = [] ∧
      (encode .storedHeader (.storedHdr 5#16 0xFFFA#16)).map List.length = some 32) ∧
    (LengthRead (dynamicBlock (.single 257) (.node (.leaf 8) .absent) (lastBits 3) [0#8]) .len257 (lastBits 2) ∧
      encode (.dist (.node (.leaf 8) .absent)) (.dist8 0#3) = some [false, false, false, false] ∧
      upcoming [0#8] (lastBits 2) = [false, false] ∧ [false, false] <+: [false, false, false, false] ∧
      ∃ q, decodeElement (.dist (.node (.leaf 8) .absent)) [0#8] (lastBits 2) = .exhausted q) :=
  ⟨⟨rfl, ⟨rfl, by decide, by decide⟩, by decide, by decide⟩, by decide, dynamic_length_read _, by decide, by decide,
    ⟨[false, false], rfl⟩, _, rfl⟩

/-- Symbols 286, 288, 19 and 30 as the code 0 of a tree. -/
theorem witness_out_of_range :
    (ReaderReady [0#8] fresh ∧ upcoming [0#8] fresh = [false] ++ List.replicate 7 false ∧
      (Trie.single 286).codeOf 286 = some [false] ∧ (Trie.single 288).codeOf 288 = some [false] ∧
      (Trie.single 19).codeOf 19 = some [false]) ∧
    (LengthRead (dynamicBlock (.single 257) (.single 30) (lastBits 3) [0#8]) .len257 (lastBits 2) ∧
      (Trie.single 30).codeOf 30 = some [false] ∧ upcoming [0#8] (lastBits 2) = [false] ++ [false]) :=
  ⟨⟨fresh_ready _ (by decide), by decide, by decide, by decide, by decide⟩, dynamic_length_read _, by decide, by decide⟩

/-- 95_test_vectors.md F4. -/
theorem witness_failing_step :
    (at' .hdr [0x07#8]).matchLen = none ∧ ∃ t, step (at' .hdr [0x07#8]) = .next t ∧ t.phase = .failed := ⟨rfl, _, rfl, rfl⟩

/-- The last byte of a final stored block. -/
theorem witness_done_step :
    ∃ t, step { at' .storedCopy [0x48#8] with stRem := 1, bfinal := true } = .next t ∧ t.phase = .done := ⟨_, rfl, rfl⟩

theorem witness_dynamic_header_step : (at' .hdr [4#8]).phase = .hdr ∧
    ∃ t, step (at' .hdr [4#8]) = .next t ∧ t.phase = .dynHdr := ⟨rfl, _, rfl, rfl⟩

/-- A step that takes an element, and a build step. -/
theorem witness_position :
    (ReaderReady (at' .hdr [3#8]).inBytes (at' .hdr [3#8]).br ∧
      ∃ t, step (at' .hdr [3#8]) = .next t ∧ t.phase ≠ .failed ∧ (at' .hdr [3#8]).phase ≠ .dynClBuild) ∧
    (ReaderReady (at' .dynClBuild [3#8]).inBytes (at' .dynClBuild [3#8]).br ∧
      ∃ t, step (at' .dynClBuild [3#8]) = .next t ∧ t.phase ≠ .failed) :=
  ⟨⟨⟨rfl, by decide, by decide⟩, _, rfl, by decide, by decide⟩, ⟨rfl, by decide, by decide⟩, _, rfl, by decide +kernel⟩

theorem witness_output_grows : (abc pairBits).matchLen = none ∧ ∃ t, step (abc pairBits) = .next t :=
  ⟨by decide +kernel, abc_steps⟩

/-- 95_test_vectors.md B1. -/
theorem witness_fields : ReaderReady [0xB5#8, 0x3C#8] fresh ∧
    upcoming [0xB5#8, 0x3C#8] fresh = fieldBits 5#3 ++ [false, true, true, false, true, false, false, true, true, true, true,
      false, false] := ⟨fresh_ready _ (by decide), by decide⟩

theorem witness_short_fetch : ReaderReady [0xFF#8] fresh ∧ (upcoming [0xFF#8] fresh).length < 9 :=
  ⟨fresh_ready _ (by decide), by decide⟩

theorem witness_exhausted : ({ byte := 0#8, cnt := 3, consumed := 2, exh := true } : BitReader).exh = true ∧ 1 ≤ 1 := by decide

theorem witness_aligned : fresh.cnt = 0 := rfl

theorem witness_placed_code : 1 ≤ 2 ∧ Trie.place 7 (codeBits 2 2) .empty = some (.node .absent (.node (.leaf 7) .absent)) ∧
    ReaderReady [1#8] fresh ∧ upcoming [1#8] fresh = codeBits 2 2 ++ [false, false, false, false, false, false] :=
  ⟨by decide, rfl, fresh_ready _ (by decide), by decide⟩

/-- A code below a leaf, a code above one, and one that fits. -/
theorem witness_place : Trie.place 1 [true, false] (.node .absent (.leaf 0)) = none ∧
    Trie.place 1 [] (.leaf 0) = none ∧
    Trie.place 1 [false] (.node .absent (.leaf 0)) = some (.node (.leaf 1) (.leaf 0)) ∧
    Trie.walk [true] (.node .absent (.leaf 0)) = .leaf 0 := by decide

theorem witness_build : build [1, 0, 2, 2] [] = some (.node (.leaf 0) (.node (.leaf 2) (.leaf 3))) ∧
    [1, 0, 2, 2][2]? = some 2 ∧ [1, 0, 2, 2][1]? = some 0 := by decide

theorem witness_oversubscribed : (∀ l ∈ [1, 1, 1], l ≤ 15) ∧ build [1, 1, 1] [] = none ∧ (∀ l ∈ [15, 15], l ≤ 15) := by decide

theorem witness_empty_tree : (∀ l ∈ [0, 0], l = 0) ∧ ReaderReady [1#8] fresh ∧
    upcoming [1#8] fresh = true :: [false, false, false, false, false, false, false] :=
  ⟨by decide, fresh_ready _ (by decide), by decide⟩

/-- A stored header at a bit position inside a byte, and a length code with extra bits. -/
theorem witness_round_trip :
    let r : BitReader := { byte := 0x15#8, cnt := 5, consumed := 1, exh := false }
    let bits := fieldBits 0#16 ++ fieldBits 0xFFFF#16
    (ReaderReady [0xA9#8, 0#8, 0#8, 0xFF#8, 0xFF#8] r ∧ encode .storedHeader (.storedHdr 0#16 0xFFFF#16) = some bits ∧
      upcoming [0xA9#8, 0#8, 0#8, 0xFF#8, 0xFF#8] (Context.storedHeader.entry r) = bits ++ []) ∧
    (ReaderReady (packBits [true, true, false, false, false, true, false, false, true, true, true, true, true]) fresh ∧
      encode (.litLen fixedLitLen) (.len284 31#5) =
        some [true, true, false, false, false, true, false, false, true, true, true, true, true] ∧
      upcoming (packBits [true, true, false, false, false, true, false, false, true, true, true, true, true]) fresh =
        [true, true, false, false, false, true, false, false, true, true, true, true, true] ++ [false, false, false]) :=
  ⟨⟨⟨rfl, by decide, by decide⟩, by decide, by decide⟩, fresh_ready _ (by decide +kernel), by decide +kernel, by decide +kernel⟩

/-- LEN 65535, LEN 0, and one bit wrong. -/
theorem witness_stored_header : (0#16 = ~~~0xFFFF#16 ∧ 0xFFFF#16 ≠ 0#16) ∧ 0xFFFF#16 = ~~~0#16 ∧
    0xFEFA#16 ≠ ~~~5#16 := by decide

/-- An empty sink, and a full one. -/
theorem witness_appends : (Memory.wf (at' .storedCopy []).sink.ram ∧ (at' .storedCopy []).sink.held.toNat ≤ 32768) ∧
    (Memory.wf [] ∧ (32768#16).toNat ≤ 32768) := by decide

theorem witness_dynamic_header_bounds : (29#5).toNat ≤ 29 ∧ 30 ≤ (30#5).toNat ∧ 30 ≤ (31#5).toNat := by decide

theorem witness_code_length_field : (18#5).toNat < 19 ∧ orderTable[(18#5).toNat]? = some 15 := by decide

/-- Lengths 1 for symbols 16 and 17 build; a third oversubscribes. -/
theorem witness_code_length_tree :
    let cl : Vector (BitVec 3) 19 := ((Vector.replicate 19 0).setIfInBounds 16 1).setIfInBounds 17 1
    (at' .dynClBuild []).phase = .dynClBuild ∧
    build (cl.toList.map BitVec.toNat) [] = some (.node (.leaf 16) (.leaf 17)) ∧
    build ((cl.setIfInBounds 18 1).toList.map BitVec.toNat) [] = none := by decide +kernel

/-- Exactly to the end, for HLIT 0 and HDIST 0, by each symbol; and a previous length. -/
theorem witness_code_length_symbols :
    (0#5).toNat ≤ 29 ∧ (29#5).toNat ≤ 29 ∧ 257 + 1 ≤ (0#5).toNat + (0#5).toNat + 258 ∧
    ((252#9 ≠ 0) ∧ 252 + (3 + (3#2).toNat) ≤ 258 ∧ (Vector.replicate 318 7#4)[(252#9).toNat - 1]? = some 7#4) ∧
    248 + (3 + (7#3).toNat) ≤ 258 ∧ 120 + (11 + (127#7).toNat) ≤ 258 ∧ (at' .dynLens []).lensIdx = 0 := by decide +kernel

/-- Symbol 16 first, and nothing after its code. -/
theorem witness_no_previous :
    let s : State := { at' .dynLens [0x80#8] with
      treeCl := .single 16, br := { byte := 0#8, cnt := 1, consumed := 1, exh := false } }
    s.phase = .dynLens ∧ s.lensIdx = 0 ∧ ReaderReady s.inBytes s.br ∧ s.treeCl.codeOf 16 = some [false] ∧
      upcoming s.inBytes s.br = [false] ++ [] :=
  ⟨rfl, rfl, ⟨rfl, by decide, by decide⟩, rfl, by decide⟩

/-- One past the end, by each repeat. -/
theorem witness_overrun : (253#9 ≠ 0 ∧ 258 < (253#9).toNat + (3 + (3#2).toNat)) ∧ 258 < (249#9).toNat + (3 + (7#3).toNat) ∧
    258 < (121#9).toNat + (11 + (127#7).toNat) := by decide

/-- Both trees build; the literal/length lengths oversubscribe; the distance lengths do. -/
theorem witness_block_trees :
    let lens : Vector (BitVec 4) 318 := ((Vector.replicate 318 0).setIfInBounds 256 1).setIfInBounds 257 1
    let s : State := { at' .dynBuild [] with lens := lens }
    s.phase = .dynBuild ∧ build (litLenLengths s) [] = some (.single 256) ∧ build (distLengths s) [] = some (.single 0) ∧
    build (litLenLengths { s with lens := (lens.setIfInBounds 0 1).setIfInBounds 1 1 }) [] = none ∧
    build (distLengths { s with hdist := 2, lens := (lens.setIfInBounds 258 1).setIfInBounds 259 1 }) [] = none := by
  decide +kernel

theorem witness_end_of_block : ({ at' .sym [] with bfinal := true } : State).bfinal = true ∧ (at' .sym []).bfinal = false := by
  decide

/-- A distance equal to the three bytes held, and the largest length. -/
theorem witness_distance_copy :
    let s : State := { abc [] with matchLen := some 258 }
    Instr.dist2.format = .d ∧ Instr.dist2.symbol ≤ 29 ∧ s.matchLen = some 258 ∧ Memory.wf s.sink.ram ∧
      s.sink.Holds [0x61#8, 0x62#8, 0x63#8] ∧ dbase Instr.dist2.symbol + Instr.dist2.extraValue = 3 ∧
      3 ≤ s.sink.held.toNat :=
  ⟨rfl, by decide, rfl, by decide +kernel, ⟨by decide +kernel, by decide +kernel, by decide +kernel, by decide +kernel,
    by decide +kernel⟩, by decide, by decide +kernel⟩

/-- A distance one more than the bytes held; the longest distance in an empty window; no length pending. -/
theorem witness_distance_too_far :
    (Instr.dist3.format = .d ∧ Instr.dist3.symbol ≤ 29 ∧ ({ abc [] with matchLen := some 3 } : State).matchLen = some 3 ∧
      (abc []).sink.held.toNat < dbase Instr.dist3.symbol + Instr.dist3.extraValue) ∧
    ((Instr.dist29 8191#13).symbol ≤ 29 ∧ (at' .sym []).sink.held.toNat < dbase 29 + (8191#13).toNat) ∧
    (at' .sym []).matchLen = none := by decide +kernel

/-- 95_test_vectors.md H8, H10. -/
theorem witness_fixed_invalid_codes :
    let s := abc [true, true, false, false, false, true, true]
    let u := abc ([false, false, false, false, false, false, true] ++ [true, true, true, true])
    (s.phase = .sym ∧ s.useFixed = true ∧ s.matchLen = none ∧ s.br = fresh ∧
      upcoming s.inBytes s.br = [true, true, false, false, false, true, true] ++ [false]) ∧
    (257 ≤ Instr.len257.symbol ∧ Instr.len257.symbol ≤ 285 ∧
      encode (.litLen fixedLitLen) .len257 = some [false, false, false, false, false, false, true] ∧ u.br = fresh ∧
      upcoming u.inBytes u.br = [false, false, false, false, false, false, true] ++ [true, true, true, true] ++
        [false, false, false, false, false]) := by decide +kernel

/-- A valid member: an empty final stored block, CRC 0 and size 0 (49_host_interface.md R411 to R424). -/
def emptyMember : List Byte :=
  [0x1F#8, 0x8B#8, 8#8, 0#8, 0#8, 0#8, 0#8, 0#8, 0#8, 0xFF#8] ++ [1#8, 0#8, 0#8, 0xFF#8, 0xFF#8] ++
    [0#8, 0#8, 0#8, 0#8, 0#8, 0#8, 0#8, 0#8]

theorem witness_valid_member : ∃ v t, validateMember emptyMember 0 State.reset = .ok (v, t) ∧ v.fileValid = true ∧
    v.length = 23 := ⟨_, _, rfl, rfl, rfl⟩

/-- 49_host_interface.md R425, R438: the second member's artifact cannot be created; the first one's stays. -/
theorem test_aborted_scan_keeps_artifacts :
    (scan { outExt := ".gz", readable := true, dirCreatable := true, blocked := ["23.gz"] } (emptyMember ++ emptyMember)
      State.reset) = .resourceFailure [{ name := "0.gz", bytes := emptyMember }] := by decide +kernel

/-- 49_host_interface.md R416, R430: the defaults. -/
theorem test_host_defaults :
    let cfg : ScanConfig := { outExt := "", readable := true, dirCreatable := true, blocked := [] }
    cfg.xlenBytes = 2 ∧ cfg.thorough = true ∧
    validateMember emptyMember 0 State.reset = validateMember emptyMember 0 State.reset 2 := ⟨rfl, rfl, rfl⟩

/-- A scan that finds it. -/
theorem witness_scan :
    let cfg : ScanConfig := { outExt := ".gz", readable := true, dirCreatable := true, blocked := [] }
    cfg.thorough = true ∧ magicAt emptyMember 0 = true ∧
    ∃ fs as, scan cfg emptyMember State.reset = .done fs as ∧ fs.map Finding.offset = [0] :=
  ⟨rfl, by decide, _, _, rfl, rfl⟩

end Sys2Proof.Tests
end

namespace Sys2Proof.Machine

/-- 49_host_interface.md R402: a CTRL write with bits 1:0 = 10 is START. -/
theorem hostWrite_start (s : State) (launch : List Byte) {value : Word}
    (hreset : value.getLsbD 0 = false) (hstart : value.getLsbD 1 = true) :
    hostWrite 0 value launch s = startCommand launch s := by
  simp only [hostWrite, hreset, hstart, Bool.false_eq_true, ↓reduceIte]

/-- 00_scope.md R10: N is below 2^32. -/
theorem startCommand_of_inputLimit_le (s : State) {launch : List Byte}
    (hlong : Config.inputLimit ≤ launch.length) :
    startCommand launch s = .refused .launchTooLong :=
  if_pos hlong

/-- Settles O7: the CTRL write is START, and START refuses a launch that reaches the input limit. -/
theorem longLaunchIsRefused : Obligations.LongLaunchIsRefused := by
  intro s value launch hreset hstart hlong
  calc hostWrite 0 value launch s
      = startCommand launch s := hostWrite_start s launch hreset hstart
    _ = .refused .launchTooLong := startCommand_of_inputLimit_le s hlong

end Sys2Proof.Machine

namespace Sys2Proof.Machine

/-! ### STATUS, bit by bit (10_state.md R63) -/

/-- Every bit of STATUS; FAIL_CAUSE has four bits, so those above bit 11 are 0. -/
theorem statusWord_getLsbD (s : State) (i : Nat) :
    (statusWord s).getLsbD i =
      if i < 4 then s.phase.code.getLsbD i
      else if i = 4 then decide (s.phase = .done)
      else if i = 5 then decide (s.phase = .failed)
      else if i < 8 then s.failKind.code.getLsbD (i - 6)
      else s.failCause.code.getLsbD (i - 8) := by
  simp only [statusWord, BitVec.getLsbD_append, Nat.sub_sub]
  obtain hphase | rfl | rfl | ⟨h6, h8⟩ | h8 : i < 4 ∨ i = 4 ∨ i = 5 ∨ (6 ≤ i ∧ i < 8) ∨ 8 ≤ i := by omega
  · simp [hphase]
  · simp
  · simp
  · have hlow : ¬i < 4 ∧ i ≠ 4 ∧ i ≠ 5 ∧ ¬i - 4 < 1 ∧ ¬i - 5 < 1 ∧ i - 6 < 2 := by omega
    simp [hlow, h8]
  · have hlow : ¬i < 4 ∧ i ≠ 4 ∧ i ≠ 5 ∧ ¬i - 4 < 1 ∧ ¬i - 5 < 1 ∧ ¬i - 6 < 2 ∧ ¬i < 8 := by omega
    simpa [hlow] using BitVec.lt_of_getLsbD

theorem statusWord_phase (s : State) : (statusWord s).extractLsb' 0 4 = s.phase.code := by
  refine BitVec.eq_of_getLsbD_eq fun i hi => ?_
  simp [statusWord_getLsbD, hi]

theorem statusWord_done (s : State) : (statusWord s).getLsbD 4 = decide (s.phase = .done) := statusWord_getLsbD s 4

theorem statusWord_failed (s : State) : (statusWord s).getLsbD 5 = decide (s.phase = .failed) := statusWord_getLsbD s 5

theorem statusWord_failKind (s : State) : (statusWord s).extractLsb' 6 2 = s.failKind.code := by
  refine BitVec.eq_of_getLsbD_eq fun i hi => ?_
  have h4 : ¬6 + i < 4 ∧ 6 + i ≠ 4 ∧ 6 + i ≠ 5 := by omega
  simp [statusWord_getLsbD, hi, h4, show 6 + i < 8 by omega]

theorem statusWord_failCause (s : State) : (statusWord s).extractLsb' 8 4 = s.failCause.code := by
  refine BitVec.eq_of_getLsbD_eq fun i hi => ?_
  have h8 : ¬8 + i < 4 ∧ 8 + i ≠ 4 ∧ 8 + i ≠ 5 := by omega
  simp [statusWord_getLsbD, hi, h8]

theorem statusWord_lt (s : State) : (statusWord s).toNat < 2 ^ 12 := by
  refine Nat.lt_pow_two_of_testBit _ fun i hi => ?_
  have h12 : ¬i < 4 ∧ i ≠ 4 ∧ i ≠ 5 ∧ ¬i < 8 := by omega
  rw [← BitVec.getLsbD, statusWord_getLsbD]
  simp [h12, BitVec.getLsbD_of_ge _ _ (show 4 ≤ i - 8 by omega)]

/-! ### The register window (10_state.md R63) -/

@[simp] theorem hostRead_status (s : State) : hostRead 0x04 s = statusWord s := rfl
@[simp] theorem hostRead_consumed (s : State) : hostRead 0x08 s = s.br.consumed := rfl
@[simp] theorem hostRead_total (s : State) : hostRead 0x0C s = s.sink.total := rfl
@[simp] theorem hostRead_crc (s : State) : hostRead 0x10 s = s.sink.crc := rfl

theorem hostRead_other {offset : Nat} (h : offset ∉ [0x04, 0x08, 0x0C, 0x10]) (s : State) :
    hostRead offset s = 0 := by
  simp only [List.mem_cons, List.not_mem_nil, or_false, not_or] at h
  obtain ⟨hstatus, hconsumed, htotal, hcrc⟩ := h
  rw [hostRead, if_neg hstatus, if_neg hconsumed, if_neg htotal, if_neg hcrc]
  rfl

theorem hostWrite_other {offset : Nat} (h : offset ≠ 0) (value : Word) (launch : List Byte) (s : State) :
    hostWrite offset value launch s = .next s :=
  if_neg h

/-- Settles O8: STATUS field by field, the other registers by name, and the code tables entry by entry. -/
theorem registerMapReads : Obligations.RegisterMapReads := by
  refine ⟨fun s => ⟨?status, hostRead_consumed s, hostRead_total s, hostRead_crc s, fun offset h => hostRead_other h s,
    fun offset value launch h => hostWrite_other h value launch s⟩, ?phase, ?kind, ?cause⟩
  case status =>
    exact ⟨statusWord_phase s, statusWord_done s, statusWord_failed s, statusWord_failKind s, statusWord_failCause s,
      statusWord_lt s⟩
  case phase => decide
  case kind => decide
  case cause => decide

end Sys2Proof.Machine

namespace Sys2Proof.Machine

/-! ### The stream position (10_state.md R61)

P is kept in `Int`, so that it is P also for the registers no run meets (BR_CNT above 8 * BR_CONSUMED). -/

/-- P = 8 * BR_CONSUMED - BR_CNT. -/
def streamPosition (r : BitReader) : Int := 8 * (r.consumed.toNat : Int) - r.cnt.toNat

/-- Where the subtraction is exact, it is the model's own P. -/
theorem streamPosition_eq_position {r : BitReader} (h : r.cnt.toNat ≤ 8 * r.consumed.toNat) :
    streamPosition r = r.position := by
  unfold streamPosition BitReader.position
  omega

/-- Comparing positions without a subtraction. -/
theorem streamPosition_lt_iff {r r' : BitReader} :
    streamPosition r < streamPosition r' ↔
      8 * r.consumed.toNat + r'.cnt.toNat < 8 * r'.consumed.toNat + r.cnt.toNat := by
  unfold streamPosition
  omega

/-- Dropping the rest of a partial byte never moves P back (41_bitreader.md R206). -/
theorem streamPosition_le_moveToByteBoundary (r : BitReader) :
    streamPosition r ≤ streamPosition (moveToByteBoundary r) := by
  simp only [streamPosition, moveToByteBoundary_cnt, moveToByteBoundary_consumed, BitVec.ofNat_eq_ofNat,
    BitVec.toNat_zero]
  omega

theorem takeBit_streamPosition {r r' : BitReader} {b : Bool} (hcnt : r.cnt ≠ 0) (h : takeBit r = .ok b r') :
    streamPosition r' = streamPosition r + 1 := by
  cases h
  have hpos : r.cnt.toNat ≠ 0 := fun h0 => hcnt (BitVec.eq_of_toNat_eq h0)
  have hdec : (r.cnt - 1).toNat = r.cnt.toNat - 1 :=
    BitVec.toNat_sub_of_le (BitVec.le_def.2 (Nat.one_le_iff_ne_zero.2 hpos))
  simp only [streamPosition, hdec]
  omega

/-- A refill takes a byte of IN into the empty partial byte: P stays, and BR_CONSUMED does not wrap. -/
theorem refill_streamPosition {inp : List Byte} {r r' : BitReader} (hlen : inp.length < Config.inputLimit)
    (hcnt : r.cnt = 0) (h : refill inp r = some r') : r'.cnt ≠ 0 ∧ streamPosition r' = streamPosition r := by
  unfold refill at h
  split at h
  · next hb =>
    cases h
    have hlt : r.consumed.toNat < inp.length := (List.getElem?_eq_some_iff.1 hb).1
    have hinc : (r.consumed + 1#32).toNat = r.consumed.toNat + 1 :=
      BitVec.toNat_add_of_lt (by simp [Config.inputLimit] at hlen ⊢; omega)
    refine ⟨(by decide : (8 : BitVec 4) ≠ 0), ?_⟩
    simp only [streamPosition, hinc, hcnt, BitVec.ofNat_eq_ofNat, BitVec.toNat_ofNat]
    omega
  · cases h

/-- A delivered bit moves P by one (41_bitreader.md R201). -/
theorem fetchBit_streamPosition {inp : List Byte} {r r' : BitReader} {b : Bool}
    (hlen : inp.length < Config.inputLimit) (h : fetchBit inp r = .ok b r') :
    streamPosition r' = streamPosition r + 1 := by
  unfold fetchBit at h
  split at h
  · cases h
  · split at h
    · next hcnt =>
      split at h
      · next r1 hr =>
        obtain ⟨hcnt1, hpos⟩ := refill_streamPosition hlen hcnt hr
        rw [takeBit_streamPosition hcnt1 h, hpos]
      · cases h
    · next hcnt => exact takeBit_streamPosition hcnt h

/-! ### Fetches that take bits -/

/-- A fetch from `r` that succeeds leaves the reader at least `n` bits further. -/
def Fetched.TakesFrom {α : Type} (r : BitReader) (n : Nat) (f : Fetched α) : Prop :=
  ∀ v r', f = .ok v r' → streamPosition r + n ≤ streamPosition r'

@[simp] theorem Fetched.takesFrom_ok {α : Type} (r : BitReader) (v : α) : (Fetched.ok v r).TakesFrom r 0 := by
  intro v' r' h
  cases h
  simp

theorem Fetched.TakesFrom.mono {α : Type} {r : BitReader} {m n : Nat} {f : Fetched α} (h : f.TakesFrom r n)
    (hmn : m ≤ n) : f.TakesFrom r m := by
  intro v r' hf
  have := h v r' hf
  omega

theorem Fetched.TakesFrom.map {α β : Type} {r : BitReader} {n : Nat} {f : Fetched α} (h : f.TakesFrom r n)
    (g : α → β) : (f.map g).TakesFrom r n := by
  intro v r' hf
  obtain ⟨u, hu, -⟩ := Fetched.map_eq_ok hf
  exact h u r' hu

theorem Fetched.TakesFrom.andThen {α β : Type} {r : BitReader} {m n : Nat} {f : Fetched α}
    {k : α → BitReader → Fetched β} (hf : f.TakesFrom r m) (hk : ∀ v r1, (k v r1).TakesFrom r1 n) :
    (f.andThen k).TakesFrom r (m + n) := by
  intro v r' h
  obtain ⟨u, r1, hu, hv⟩ := Fetched.andThen_eq_ok h
  have hfirst := hf u r1 hu
  have hrest := hk u r1 v r' hv
  omega

/-- A fetch that begins at the next byte boundary takes as much from here. -/
theorem Fetched.TakesFrom.of_moveToByteBoundary {α : Type} {r : BitReader} {n : Nat} {f : Fetched α}
    (h : f.TakesFrom (moveToByteBoundary r) n) : f.TakesFrom r n := by
  intro v r' hf
  have hskip := streamPosition_le_moveToByteBoundary r
  have := h v r' hf
  omega

section
variable {inp : List Byte} (hlen : inp.length < Config.inputLimit)
include hlen

theorem fetchBit_takesFrom (r : BitReader) : (fetchBit inp r).TakesFrom r 1 :=
  fun _ _ h => (fetchBit_streamPosition hlen h).ge

theorem fetchBits_takesFrom (n : Nat) (r : BitReader) : (fetchBits inp n r).TakesFrom r n := by
  induction n generalizing r with
  | zero => exact Fetched.takesFrom_ok r _
  | succ n ih =>
    have hsucc := (fetchBit_takesFrom hlen r).andThen fun b r1 => (ih r1).map (·.concat b)
    exact hsucc.mono (Nat.add_comm n 1).le

theorem decodeFrom_takesFrom (t : Trie) (r : BitReader) : (decodeFrom inp t r).TakesFrom r 0 := by
  induction t generalizing r with
  | absent => exact Fetched.takesFrom_ok r _
  | leaf s => exact Fetched.takesFrom_ok r _
  | node zero one ihzero ihone =>
    have hnode : decodeFrom inp (.node zero one) r =
        (fetchBit inp r).andThen fun b r1 => if b then decodeFrom inp one r1 else decodeFrom inp zero r1 := by
      rw [decodeFrom]
      cases fetchBit inp r <;> rfl
    rw [hnode]
    refine ((fetchBit_takesFrom hlen r).andThen (n := 0) fun b r1 => ?_).mono (Nat.zero_le _)
    cases b
    · exact ihzero r1
    · exact ihone r1

/-- decode reads at least one bit (43_huffman.md R249). -/
theorem decodeSymbol_takesFrom (t : Trie) (r : BitReader) : (decodeSymbol inp t r).TakesFrom r 1 :=
  (fetchBit_takesFrom hlen r).andThen fun b r1 => decodeFrom_takesFrom hlen (t.child b) r1

/-! ### The decoder takes at least one bit for every element (30_encoding.md R140) -/

theorem withExtra_takesFrom (n : Nat) (mk : BitVec n → Instr) (r : BitReader) :
    (withExtra n mk inp r).TakesFrom r 0 :=
  ((fetchBits_takesFrom hlen n r).map _).mono (Nat.zero_le n)

omit hlen in
@[simp] theorem noExtra_takesFrom (i : Instr) (r : BitReader) : (noExtra i r).TakesFrom r 0 :=
  Fetched.takesFrom_ok r _

theorem clElement_takesFrom (hasPrev : Bool) (sym : Nat) (r : BitReader) :
    (clElement hasPrev sym inp r).TakesFrom r 0 := by
  unfold clElement
  split_ifs <;> simp [withExtra_takesFrom hlen]

theorem lengthElement_takesFrom (sym : Nat) (r : BitReader) : (lengthElement sym inp r).TakesFrom r 0 := by
  unfold lengthElement
  split <;> simp [withExtra_takesFrom hlen]

theorem litLenElement_takesFrom (sym : Nat) (r : BitReader) : (litLenElement sym inp r).TakesFrom r 0 := by
  unfold litLenElement
  split
  · exact noExtra_takesFrom _ r
  · exact lengthElement_takesFrom hlen sym r

theorem distElement_takesFrom (sym : Nat) (r : BitReader) : (distElement sym inp r).TakesFrom r 0 := by
  unfold distElement
  split <;> simp [withExtra_takesFrom hlen]

theorem codedElement_takesFrom {element : Nat → List Byte → BitReader → Decoded}
    (helement : ∀ sym r, (element sym inp r).TakesFrom r 0) (tree : Trie) (invalid : DecodeError) (r : BitReader) :
    (codedElement tree invalid element inp r).TakesFrom r 1 := by
  refine (decodeSymbol_takesFrom hlen tree r).andThen (n := 0) fun sym r1 => ?_
  cases sym with
  | none => exact Fetched.takesFrom_ok r1 _
  | some s => exact helement s r1

theorem decodeElement_takesFrom (c : Context) (r : BitReader) : (decodeElement c inp r).TakesFrom r 1 := by
  have fetch := fetchBits_takesFrom hlen
  cases c with
  | header => exact ((fetch 3 r).map _).mono (by decide)
  | storedHeader =>
    refine .of_moveToByteBoundary (.mono (n := 16 + 16) ?_ (by decide))
    exact (fetch 16 _).andThen fun len r1 => (fetch 16 r1).map _
  | storedByte => exact ((fetch 8 r).map _).mono (by decide)
  | dynHeader =>
    refine .mono (n := 5 + (5 + 4)) ?_ (by decide)
    exact (fetch 5 r).andThen fun hlit r1 => (fetch 5 r1).andThen fun hdist r2 => (fetch 4 r2).map _
  | clLength => exact ((fetch 3 r).map _).mono (by decide)
  | clSymbol tree hasPrev => exact codedElement_takesFrom hlen (clElement_takesFrom hlen hasPrev) tree _ r
  | litLen tree => exact codedElement_takesFrom hlen (litLenElement_takesFrom hlen) tree _ r
  | dist tree => exact codedElement_takesFrom hlen (distElement_takesFrom hlen) tree _ r

end

/-! ### No meaning moves the reader or writes IN -/

/-- A state after the failure entry, with no length pending (60_exceptions.md R452, 47_symbols.md R376). -/
def State.HasFailed (t : State) : Prop := t.phase = .failed ∧ t.matchLen = none

@[simp] theorem failStructural_hasFailed (cause : FailCause) (s : State) : (failStructural cause s).HasFailed := ⟨rfl, rfl⟩
@[simp] theorem failExhausted_hasFailed (s : State) : (failExhausted s).HasFailed := ⟨rfl, rfl⟩

/-- A next state of `o` has the IN of `s`, and its reader unless it has failed. -/
def KeepsReader (s : State) (o : Result) : Prop :=
  ∀ t, o = .next t → t.input = s.input ∧ (t.HasFailed ∨ t.br = s.br)

@[simp] theorem keepsReader_next {s t : State} :
    KeepsReader s (.next t) ↔ t.input = s.input ∧ (t.HasFailed ∨ t.br = s.br) := by
  simp [KeepsReader]

@[simp] theorem keepsReader_fault (s : State) (f : Fault) : KeepsReader s (.fault f) := by
  simp [KeepsReader]

theorem setMatchLength_keepsReader (code e : Nat) (s : State) : KeepsReader s (setMatchLength code e s) := by
  simp [setMatchLength]

theorem copyMatch_keepsReader (code e : Nat) (s : State) : KeepsReader s (copyMatch code e s) := by
  rcases copyMatch_cases code e s with ⟨-, h⟩ | ⟨_, -, -, h⟩ | ⟨_, -, -, h⟩ <;> simp [h]

theorem storeLengths_keepsReader (rep : Nat) (v : BitVec 4) (s : State) : KeepsReader s (storeLengths rep v s) := by
  rcases storeLengths_cases rep v s with ⟨-, h⟩ | ⟨-, h⟩ <;> simp [h]

theorem execStoredHdr_keepsReader (len nlen : BitVec 16) (s : State) : KeepsReader s (execStoredHdr len nlen s) := by
  unfold execStoredHdr
  dsimp only
  split_ifs <;> simp

theorem execStoredByte_keepsReader (b : Byte) (s : State) : KeepsReader s (execStoredByte b s) := by
  unfold execStoredByte
  dsimp only
  split_ifs <;> simp

theorem execDynHdr_keepsReader (hlit hdist : BitVec 5) (hclen : BitVec 4) (s : State) :
    KeepsReader s (execDynHdr hlit hdist hclen s) := by
  unfold execDynHdr
  dsimp only
  split_ifs <;> simp

theorem execClLength_keepsReader (len : BitVec 3) (s : State) : KeepsReader s (execClLength len s) := by
  unfold execClLength
  dsimp only
  split_ifs <;> simp

theorem execClRepPrev_keepsReader (extra : BitVec 2) (s : State) : KeepsReader s (execClRepPrev extra s) := by
  unfold execClRepPrev
  split_ifs
  · simp
  · exact storeLengths_keepsReader _ _ s

theorem exec_keepsReader (i : Instr) (s : State) : KeepsReader s (exec i s) := by
  cases i
  case blockStored | blockFixed | blockDynamic | blockReserved =>
    simp [exec, execBlockStored, execBlockFixed, execBlockDynamic, execBlockReserved]
  case storedHdr len nlen => exact execStoredHdr_keepsReader len nlen s
  case storedByte b => exact execStoredByte_keepsReader b s
  case dynHdr hlit hdist hclen => exact execDynHdr_keepsReader hlit hdist hclen s
  case clLength len => exact execClLength_keepsReader len s
  case clRepPrev extra => exact execClRepPrev_keepsReader extra s
  case clLen | clRepZeroShort | clRepZeroLong => exact storeLengths_keepsReader _ _ s
  case lit | eob => simp [exec, execLit, execEob]
  case llInvalid286 | llInvalid287 | distInvalid30 | distInvalid31 =>
    simp [exec, execLlInvalid286, execLlInvalid287, execDistInvalid30, execDistInvalid31]
  case len257 | len258 | len259 | len260 | len261 | len262 | len263 | len264 | len265 | len266 | len267 | len268 |
      len269 | len270 | len271 | len272 | len273 | len274 | len275 | len276 | len277 | len278 | len279 | len280 |
      len281 | len282 | len283 | len284 | len285 =>
    exact setMatchLength_keepsReader _ _ s
  all_goals exact copyMatch_keepsReader _ _ s

theorem stepClBuild_keepsReader (s : State) : KeepsReader s (.next (stepClBuild s)) := by
  unfold stepClBuild
  split <;> simp

theorem stepBuild_keepsReader (s : State) : KeepsReader s (.next (stepBuild s)) := by
  unfold stepBuild
  split
  · simp
  · split <;> simp

/-! ### A step that takes an element moves P forward -/

/-- Between the states IN is unchanged, and P moves forward unless the second has failed. -/
def AdvancesTo (s t : State) : Prop :=
  t.input = s.input ∧ (t.HasFailed ∨ streamPosition s.br < streamPosition t.br)

theorem runElement_advances {c : Context} {s t : State} (hlen : s.inBytes.length < Config.inputLimit)
    (h : runElement c s = .next t) : AdvancesTo s t := by
  rcases runElement_cases c s with ⟨i, r, hd, hrun⟩ | ⟨e, r, -, hrun⟩ | ⟨r, -, hrun⟩
  · have hpos : streamPosition s.br < streamPosition r := decodeElement_takesFrom hlen c s.br _ r hd
    obtain ⟨hin, hbr⟩ := exec_keepsReader i (s.withReader r) t (hrun ▸ h)
    exact ⟨hin, hbr.imp_right fun hr => by rwa [hr]⟩
  · cases hrun.symm.trans h
    exact ⟨rfl, .inl (failStructural_hasFailed _ _)⟩
  · cases hrun.symm.trans h
    exact ⟨rfl, .inl (failExhausted_hasFailed _)⟩

/-- The distance element of a pair goes on from where its length element stopped (47_symbols.md R360, R378). -/
theorem finishPair_advances {c : Context} {s t : State} (hlen : s.inBytes.length < Config.inputLimit)
    (h : finishPair (runElement c s) = .next t) : AdvancesTo s t := by
  cases hrun : runElement c s with
  | fault f => rw [hrun] at h; cases h
  | refused r => rw [hrun] at h; cases h
  | next u =>
    obtain ⟨hin, hpos⟩ := runElement_advances hlen hrun
    rw [hrun, finishPair] at h
    split at h
    · next hm =>
      have hinBytes : u.inBytes = s.inBytes := by rw [State.inBytes, hin, State.inBytes]
      obtain ⟨hin', hpos'⟩ := runElement_advances (hinBytes ▸ hlen) h
      have hu : streamPosition s.br < streamPosition u.br :=
        hpos.resolve_left fun ⟨_, hnone⟩ => by simp [hnone] at hm
      exact ⟨hin'.trans hin, hpos'.imp_right hu.trans⟩
    · cases h
      exact ⟨hin, hpos⟩

/-- The step of a phase that takes an element runs it, with the distance of its pair after it in SYM. -/
theorem step_of_elementContext {s : State} {c : Context} (hc : elementContext s = some c) :
    step s = runElement c s ∨ step s = finishPair (runElement c s) := by
  by_cases hsym : s.phase = .sym
  · simp only [elementContext, hsym, Option.some.injEq] at hc
    subst hc
    by_cases hm : s.matchLen.isSome = true
    · exact .inl (by simp [step, stepPhase, hsym, hm])
    · exact .inr (by simp [step, stepPhase, hsym, hm])
  · exact .inl (step_element hsym hc)

/-- 45_block_fsm.md R300: a phase that neither takes an element nor builds has no step. -/
theorem elementContext_of_step {s t : State} (hcl : s.phase ≠ .dynClBuild) (hbuild : s.phase ≠ .dynBuild)
    (h : step s = .next t) : ∃ c, elementContext s = some c := by
  cases hp : s.phase
  case idle | done | failed => simp [step, stepPhase, elementContext, hp] at h
  case dynClBuild => exact absurd hp hcl
  case dynBuild => exact absurd hp hbuild
  all_goals exact ⟨_, by rw [elementContext, hp]⟩

theorem step_advances {s t : State} (hlen : s.inBytes.length < Config.inputLimit) (hcl : s.phase ≠ .dynClBuild)
    (hbuild : s.phase ≠ .dynBuild) (h : step s = .next t) : AdvancesTo s t := by
  obtain ⟨c, hc⟩ := elementContext_of_step hcl hbuild h
  rcases step_of_elementContext hc with hstep | hstep
  · exact runElement_advances hlen (hstep ▸ h)
  · exact finishPair_advances hlen (hstep ▸ h)

theorem step_keepsReader_of_build {s : State} (hp : s.phase = .dynClBuild ∨ s.phase = .dynBuild) :
    KeepsReader s (step s) := by
  rcases hp with hp | hp
  · exact step_clBuild hp ▸ stepClBuild_keepsReader s
  · exact step_build hp ▸ stepBuild_keepsReader s

/-- Settles O18: every element takes at least one bit and its meaning leaves the reader alone; a build fetches nothing. -/
theorem streamPositionAdvances : Obligations.StreamPositionAdvances := by
  intro s t hready h
  by_cases hp : s.phase = .dynClBuild ∨ s.phase = .dynBuild
  · obtain ⟨hin, hbr⟩ := step_keepsReader_of_build hp t h
    refine ⟨hin, fun hlive => ⟨fun hcl hbuild => (hp.elim hcl hbuild).elim, fun _ => ?_⟩⟩
    exact hbr.resolve_left fun hfailed => hlive hfailed.1
  · obtain ⟨hcl, hbuild⟩ := not_or.1 hp
    obtain ⟨hin, hpos⟩ := step_advances hready.length_lt hcl hbuild h
    refine ⟨hin, fun hlive => ⟨fun _ _ => streamPosition_lt_iff.1 ?_, fun h => (hp h).elim⟩⟩
    exact hpos.resolve_left fun hfailed => hlive hfailed.1

end Sys2Proof.Machine

namespace Sys2Proof.Machine

/-! ### The sink after one more byte, and after a copy (44_window.md R270 to R275) -/

theorem crcOf_concat (o : List Byte) (b : Byte) : crcOf (o ++ [b]) = crcAddByte (crcOf o) b := by
  simp [crcOf]

/-- The byte written last is the one appended. -/
theorem Sink.byteBack_append_zero {k : Sink} (hram : Memory.wf k.ram) (b : Byte) : (k.append b).byteBack 0 = b := by
  have hindex : k.wp + 1 - BitVec.ofNat 15 (0 + 1) = k.wp := by bv_omega
  rw [Sink.byteBack, Sink.append_wp, hindex]
  exact Memory.read_write_same hram.1 _ b

/-- The bytes written before are one append further back, as long as the ring has not come round to them. -/
theorem Sink.byteBack_append_succ (k : Sink) (b : Byte) {back : Nat} (hback : back + 1 < Config.windowSize) :
    (k.append b).byteBack (back + 1) = k.byteBack back := by
  have hback : back + 1 < 32768 := hback
  have hindex : k.wp + 1 - BitVec.ofNat 15 (back + 1 + 1) = k.wp - BitVec.ofNat 15 (back + 1) := by bv_omega
  have hother : (k.wp - BitVec.ofNat 15 (back + 1)).toNat ≠ k.wp.toNat := by bv_omega
  rw [Sink.byteBack, Sink.append_wp, hindex]
  exact Memory.read_write_other _ b hother

/-- appendByte extends the output the sink holds by its byte (44_window.md R271, 42_crc32.md R224). -/
theorem Sink.Holds.append {k : Sink} {o : List Byte} (h : k.Holds o) (hram : Memory.wf k.ram) (b : Byte) :
    (k.append b).Holds (o ++ [b]) := by
  have hheld : (k.append b).held.toNat = min (o ++ [b]).length Config.windowSize := by
    have hk := h.held_eq
    rw [Sink.append_held, List.length_append, List.length_singleton]
    split <;> simp only [Config.windowSize] at * <;> bv_omega
  refine ⟨?crc, ?total, hheld, ?wp, fun back hback => ?window⟩
  case crc => rw [Sink.append_crc, h.crc_eq, crcOf_concat]
  case total =>
    have := h.total_eq
    simp only [Sink.append_total, List.length_append, List.length_singleton]
    bv_omega
  case wp =>
    have hk : k.wp.toNat = o.length % 32768 := h.wp_eq
    simp only [Sink.append_wp, List.length_append, List.length_singleton, Config.windowSize]
    bv_omega
  case window =>
    rw [hheld, List.length_append, List.length_singleton] at hback
    cases back with
    | zero => simp [Sink.byteBack_append_zero hram]
    | succ back =>
      have hold : back < k.held.toNat := by rw [h.held_eq]; omega
      have hlt : o.length - 1 - back < o.length := by omega
      rw [Sink.byteBack_append_succ k b (by omega), ← h.window_eq back hold, ← List.getElem?_append_left hlt]
      congr 1
      simp only [List.length_append, List.length_singleton]
      omega

/-- WIN in canonical form, holding the last bytes of the attempt's output. -/
def Sink.Sound (k : Sink) : Prop := Memory.wf k.ram ∧ SinkInv k

theorem Sink.Sound.append {k : Sink} (h : k.Sound) (b : Byte) : (k.append b).Sound := by
  obtain ⟨hram, earlier, o, hout, hholds⟩ := h
  exact ⟨Sink.append_ram_wf hram b, earlier, o ++ [b], by simp [hout], hholds.append hram b⟩

theorem Sink.Sound.copy {k : Sink} (h : k.Sound) (back n : Nat) : (k.copy back n).Sound := by
  induction n generalizing k with
  | zero => exact h
  | succ n ih => exact ih (h.append _)

/-! ### What every fetch keeps, every element keeps (30_encoding.md R158) -/

/-- A property of the reader that a fetched bit and the move to a byte boundary keep. -/
structure KeptByFetches (inp : List Byte) (P : BitReader → Prop) : Prop where
  bit : ∀ {r r' : BitReader} {b : Bool}, P r → fetchBit inp r = .ok b r' → P r'
  boundary : ∀ {r : BitReader}, P r → P (moveToByteBoundary r)

/-- A fetch that succeeds leaves a reader with the property. -/
def Fetched.Leaves {α : Type} (P : BitReader → Prop) (f : Fetched α) : Prop := ∀ v r, f = .ok v r → P r

section
variable {P : BitReader → Prop}

@[simp] theorem Fetched.leaves_ok {α : Type} {v : α} {r : BitReader} : (Fetched.ok v r).Leaves P ↔ P r := by
  simp [Fetched.Leaves]

theorem Fetched.Leaves.map {α β : Type} {f : Fetched α} (h : f.Leaves P) (g : α → β) : (f.map g).Leaves P := by
  intro v r hf
  obtain ⟨u, hu, -⟩ := Fetched.map_eq_ok hf
  exact h u r hu

theorem Fetched.Leaves.andThen {α β : Type} {f : Fetched α} {k : α → BitReader → Fetched β} (hf : f.Leaves P)
    (hk : ∀ v r, P r → (k v r).Leaves P) : (f.andThen k).Leaves P := by
  intro v r h
  obtain ⟨u, r1, hu, hv⟩ := Fetched.andThen_eq_ok h
  exact hk u r1 (hf u r1 hu) v r hv

@[simp] theorem noExtra_leaves {i : Instr} {r : BitReader} : (noExtra i r).Leaves P ↔ P r := Fetched.leaves_ok

variable {inp : List Byte} (hP : KeptByFetches inp P)
include hP

theorem fetchBit_leaves {r : BitReader} (hr : P r) : (fetchBit inp r).Leaves P := fun _ _ h => hP.bit hr h

theorem fetchBits_leaves (n : Nat) {r : BitReader} (hr : P r) : (fetchBits inp n r).Leaves P := by
  induction n generalizing r with
  | zero => exact Fetched.leaves_ok.2 hr
  | succ n ih => exact (fetchBit_leaves hP hr).andThen fun b r1 hr1 => (ih hr1).map _

theorem decodeFrom_leaves (t : Trie) {r : BitReader} (hr : P r) : (decodeFrom inp t r).Leaves P := by
  induction t generalizing r with
  | absent => exact Fetched.leaves_ok.2 hr
  | leaf s => exact Fetched.leaves_ok.2 hr
  | node zero one ihzero ihone =>
    rw [decodeFrom_node]
    refine (fetchBit_leaves hP hr).andThen fun b r1 hr1 => ?_
    cases b
    · exact ihzero hr1
    · exact ihone hr1

theorem decodeSymbol_leaves (t : Trie) {r : BitReader} (hr : P r) : (decodeSymbol inp t r).Leaves P :=
  (fetchBit_leaves hP hr).andThen fun b _ hr1 => decodeFrom_leaves hP (t.child b) hr1

theorem withExtra_leaves (n : Nat) (mk : BitVec n → Instr) {r : BitReader} (hr : P r) :
    (withExtra n mk inp r).Leaves P :=
  (fetchBits_leaves hP n hr).map _

theorem clElement_leaves (hasPrev : Bool) (sym : Nat) {r : BitReader} (hr : P r) :
    (clElement hasPrev sym inp r).Leaves P := by
  unfold clElement
  split_ifs <;> simp [withExtra_leaves hP, hr]

theorem litLenElement_leaves (sym : Nat) {r : BitReader} (hr : P r) : (litLenElement sym inp r).Leaves P := by
  unfold litLenElement lengthElement
  split
  · exact noExtra_leaves.2 hr
  · split <;> simp [withExtra_leaves hP, hr]

theorem distElement_leaves (sym : Nat) {r : BitReader} (hr : P r) : (distElement sym inp r).Leaves P := by
  unfold distElement
  split <;> simp [withExtra_leaves hP, hr]

theorem codedElement_leaves {element : Nat → List Byte → BitReader → Decoded}
    (helement : ∀ sym {r}, P r → (element sym inp r).Leaves P) (tree : Trie) (invalid : DecodeError) {r : BitReader}
    (hr : P r) : (codedElement tree invalid element inp r).Leaves P := by
  refine (decodeSymbol_leaves hP tree hr).andThen fun sym r1 hr1 => ?_
  cases sym with
  | none => exact Fetched.leaves_ok.2 hr1
  | some s => exact helement s hr1

theorem decodeElement_leaves (c : Context) {r : BitReader} (hr : P r) : (decodeElement c inp r).Leaves P := by
  have fetch := fun n {r} (hr : P r) => fetchBits_leaves hP n hr
  cases c with
  | header => exact (fetch 3 hr).map _
  | storedHeader => exact (fetch 16 (hP.boundary hr)).andThen fun len r1 hr1 => (fetch 16 hr1).map _
  | storedByte => exact (fetch 8 hr).map _
  | dynHeader =>
    exact (fetch 5 hr).andThen fun hlit r1 hr1 => (fetch 5 hr1).andThen fun hdist r2 hr2 => (fetch 4 hr2).map _
  | clLength => exact (fetch 3 hr).map _
  | clSymbol tree hasPrev => exact codedElement_leaves hP (clElement_leaves hP hasPrev) tree _ hr
  | litLen tree => exact codedElement_leaves hP (litLenElement_leaves hP) tree _ hr
  | dist tree => exact codedElement_leaves hP (distElement_leaves hP) tree _ hr

end

/-! ### The reader stays between fetches and within IN (10_state.md R39, R40) -/

/-- The reader can deliver and has taken no byte beyond IN. -/
def BitReader.Within (inp : List Byte) (r : BitReader) : Prop := ReaderReady inp r ∧ r.consumed.toNat ≤ inp.length

theorem refill_consumed_le {inp : List Byte} {r r' : BitReader} (hlen : inp.length < Config.inputLimit)
    (h : refill inp r = some r') : r'.consumed.toNat ≤ inp.length := by
  unfold refill at h
  split at h
  · next hb =>
    cases h
    have hlt : r.consumed.toNat < inp.length := (List.getElem?_eq_some_iff.1 hb).1
    have hlimit : inp.length < 2 ^ 32 := hlen
    have hinc : (r.consumed + 1#32).toNat = r.consumed.toNat + 1 := BitVec.toNat_add_of_lt (by simp; omega)
    exact hinc.trans_le hlt
  · cases h

theorem fetchBit_consumed_le {inp : List Byte} {r r' : BitReader} {b : Bool} (hlen : inp.length < Config.inputLimit)
    (hr : r.consumed.toNat ≤ inp.length) (h : fetchBit inp r = .ok b r') : r'.consumed.toNat ≤ inp.length := by
  unfold fetchBit at h
  split at h
  · cases h
  · split at h
    · split at h
      · next r1 hrefill =>
        have hle := refill_consumed_le hlen hrefill
        cases h
        exact hle
      · cases h
    · cases h; exact hr

/-- A delivered bit was there to deliver, so the reader can go on (41_bitreader.md R201). -/
theorem fetchBit_ready {inp : List Byte} {r r' : BitReader} {b : Bool} (hr : ReaderReady inp r)
    (h : fetchBit inp r = .ok b r') : ReaderReady inp r' := by
  cases hu : upcoming inp r with
  | nil =>
    rw [fetchBit_of_no_bits hr.not_exhausted hr.cnt_le hu] at h
    cases h
  | cons b1 rest =>
    obtain ⟨r1, hfetch, -, hexh, hcnt⟩ := fetchBit_of_upcoming hr.not_exhausted hr.cnt_le hr.length_lt hu
    cases hfetch.symm.trans h
    exact ⟨hexh, hcnt, hr.length_lt⟩

theorem within_keptByFetches (inp : List Byte) : KeptByFetches inp (BitReader.Within inp) where
  bit := fun ⟨hready, hconsumed⟩ h =>
    ⟨fetchBit_ready hready h, fetchBit_consumed_le hready.length_lt hconsumed h⟩
  boundary := fun ⟨hready, hconsumed⟩ => ⟨⟨hready.not_exhausted, Nat.zero_le _, hready.length_lt⟩, hconsumed⟩

theorem ReaderInv.within {s : State} (h : ReaderInv s) : s.br.Within s.inBytes :=
  ⟨⟨h.not_exhausted, h.cnt_le, h.length_lt⟩, h.consumed_le⟩

/-- A decoded element leaves the reader between fetches and within IN. -/
theorem ReaderInv.withReader {s : State} {c : Context} {d : Except DecodeError Instr} {r : BitReader}
    (h : ReaderInv s) (hd : decodeElement c s.inBytes s.br = .ok d r) : ReaderInv (s.withReader r) := by
  obtain ⟨hready, hconsumed⟩ := decodeElement_leaves (within_keptByFetches s.inBytes) c h.within d r hd
  exact ⟨hready.cnt_le, hready.not_exhausted, hconsumed, h.length_lt, h.bound_when_live⟩

/-- From a live phase, a change of neither the reader nor IN. -/
theorem ReaderInv.of_kept {s t : State} (h : ReaderInv s) (hlive : s.phase.live = true) (hinput : t.input = s.input)
    (hbr : t.br = s.br) : ReaderInv t := by
  have hlength : t.inLength = s.inLength := by simp only [State.inLength, State.inBytes, hinput]
  exact ⟨hbr ▸ h.cnt_le, hbr ▸ h.not_exhausted, by rw [hbr, hlength]; exact h.consumed_le, hlength ▸ h.length_lt,
    fun _ => hinput ▸ h.bound_when_live hlive⟩

/-! ### What the invariant says beside the reader -/

/-- The attempt has not failed, the sink holds its output, and the counters are inside their phase. -/
structure State.Sound (s : State) : Prop where
  phase_ne : s.phase ≠ .failed
  no_failure : s.failKind = .none ∧ s.failCause = .none
  sink : s.sink.Sound
  header : HeaderInv s

theorem State.Inv.sound {s : State} (h : s.Inv) (hp : s.phase ≠ .failed) : s.Sound where
  phase_ne := hp
  no_failure := by simpa [StatusInv, hp] using h.status
  sink := ⟨h.ram_wf, h.sink hp⟩
  header := h.header hp

/-- The invariant, as soon as the reader is seen to keep its part of it. -/
def State.InvButReader (t : State) : Prop := (t.phase ≠ .failed → ReaderInv t) → t.Inv

theorem State.Sound.invButReader {t : State} (h : t.Sound) (hm : t.matchLen = none) : t.InvButReader := fun hreader =>
  { ram_wf := h.sink.1, no_pending := hm, status := by simpa [StatusInv, h.phase_ne] using h.no_failure,
    reader := hreader, sink := fun _ => h.sink.2, header := fun _ => h.header }

theorem failStructural_invButReader {cause : FailCause} (hc : cause ≠ .none) (s : State) :
    (failStructural cause s).InvButReader := fun _ => failStructural_inv cause hc s

/-- Every next state of `o` has the property. -/
def NextHas (P : State → Prop) (o : Result) : Prop := ∀ t, o = .next t → P t

@[simp] theorem nextHas_next {P : State → Prop} {t : State} : NextHas P (.next t) ↔ P t := by simp [NextHas]
@[simp] theorem nextHas_fault (P : State → Prop) (f : Fault) : NextHas P (.fault f) := by simp [NextHas]

/-! ### The meanings keep it -/

/-- The phase that takes an element of a format (30_encoding.md R140, 45_block_fsm.md R300). -/
def phaseTaking : Format → Phase
  | .bh => .hdr
  | .sh => .storedHdr
  | .sb => .storedCopy
  | .dh => .dynHdr
  | .cll => .dynCll
  | .cls => .dynLens
  | .ll | .d => .sym

theorem phaseTaking_live (f : Format) : (phaseTaking f).live = true := by cases f <;> rfl

theorem phase_of_elementContext {s : State} {c : Context} (h : elementContext s = some c) :
    s.phase = phaseTaking c.format := by
  cases hp : s.phase <;> simp only [elementContext, hp, Option.some.injEq, reduceCtorEq] at h <;> subst h
  case sym => split <;> rfl
  all_goals rfl

/-! ### Every meaning keeps what the invariant says beside the reader -/

theorem endBlock_invButReader {s : State} (hfail : s.failKind = .none ∧ s.failCause = .none) (hsink : s.sink.Sound)
    (hm : s.matchLen = none) : (endBlock s).InvButReader := by
  refine State.Sound.invButReader ⟨?_, hfail, hsink, ?_⟩ hm
  all_goals cases hb : s.bfinal <;> simp [HeaderInv, hb]

section
variable {s : State} (hs : s.Sound)
include hs

theorem copyMatch_invButReader (code e : Nat) : NextHas State.InvButReader (copyMatch code e s) := by
  rcases copyMatch_cases code e s with ⟨-, h⟩ | ⟨len, -, -, h⟩ | ⟨len, -, -, h⟩ <;> rw [h]
  · exact nextHas_fault _ _
  · exact nextHas_next.2 (failStructural_invButReader (by decide) s)
  · have hsound : State.Sound { s with sink := s.sink.copy (backDistance code e) len, matchLen := none } :=
      ⟨hs.phase_ne, hs.no_failure, hs.sink.copy _ _, hs.header⟩
    exact nextHas_next.2 (hsound.invButReader rfl)

variable (hm : s.matchLen = none)
include hm

theorem execStoredHdr_invButReader (len nlen : BitVec 16) : NextHas State.InvButReader (execStoredHdr len nlen s) := by
  unfold execStoredHdr
  dsimp only
  split_ifs with hnlen hlen <;> refine nextHas_next.2 ?_
  · exact failStructural_invButReader (by decide) _
  · exact endBlock_invButReader hs.no_failure hs.sink hm
  · exact State.Sound.invButReader ⟨nofun, hs.no_failure, hs.sink, hlen⟩ hm

theorem execStoredByte_invButReader (hp : s.phase = .storedCopy) (b : Byte) :
    NextHas State.InvButReader (execStoredByte b s) := by
  unfold execStoredByte
  dsimp only
  split_ifs with hrem <;> refine nextHas_next.2 ?_
  · exact endBlock_invButReader hs.no_failure (hs.sink.append b) hm
  · refine State.Sound.invButReader ⟨hs.phase_ne, hs.no_failure, hs.sink.append b, ?_⟩ hm
    simpa [HeaderInv, hp] using hrem

theorem execDynHdr_invButReader (hlit hdist : BitVec 5) (hclen : BitVec 4) :
    NextHas State.InvButReader (execDynHdr hlit hdist hclen s) := by
  unfold execDynHdr
  dsimp only
  split_ifs with hlarge <;> refine nextHas_next.2 ?_
  · exact failStructural_invButReader (by decide) _
  · exact State.Sound.invButReader ⟨nofun, hs.no_failure, hs.sink, Nat.le_of_not_lt hlarge, Nat.succ_pos _⟩ hm

theorem execClLength_invButReader (hp : s.phase = .dynCll) (len : BitVec 3) :
    NextHas State.InvButReader (execClLength len s) := by
  obtain ⟨hhlit, hidx⟩ : litLenCount s.hlit ≤ 286 ∧ s.clIdx.toNat < codeLengthCount s.hclen := by
    simpa only [HeaderInv, hp] using hs.header
  have hcount : codeLengthCount s.hclen ≤ 19 := Nat.add_le_add_right (Nat.le_of_lt_succ s.hclen.isLt) 4
  have hnext : (s.clIdx + 1).toNat = s.clIdx.toNat + 1 := by bv_omega
  unfold execClLength
  dsimp only
  split_ifs with hend <;> refine nextHas_next.2 ?_
  · exact State.Sound.invButReader ⟨nofun, hs.no_failure, hs.sink, hhlit⟩ hm
  · refine State.Sound.invButReader ⟨hs.phase_ne, hs.no_failure, hs.sink, ?_⟩ hm
    simp only [HeaderInv, hp]
    exact ⟨hhlit, by omega⟩

theorem storeLengths_invButReader (hp : s.phase = .dynLens) (rep : Nat) (v : BitVec 4) :
    NextHas State.InvButReader (storeLengths rep v s) := by
  obtain ⟨hhlit, -⟩ : litLenCount s.hlit ≤ 286 ∧ s.lensIdx.toNat < lensTotal s.hlit s.hdist := by
    simpa only [HeaderInv, hp] using hs.header
  rcases storeLengths_cases rep v s with ⟨-, h⟩ | ⟨hle, h⟩ <;> rw [h] <;> refine nextHas_next.2 ?_
  · exact failStructural_invButReader (by decide) s
  · have htotal : lensTotal s.hlit s.hdist ≤ 320 := by unfold lensTotal; omega
    have hnext : (s.lensIdx + BitVec.ofNat 9 rep).toNat = s.lensIdx.toNat + rep := by bv_omega
    refine State.Sound.invButReader ⟨?_, hs.no_failure, hs.sink, ?_⟩ hm
    · split <;> simp [hp]
    · by_cases hend : s.lensIdx.toNat + rep = lensTotal s.hlit s.hdist
      · simp only [HeaderInv, hend, if_true]
        exact ⟨hhlit, hnext.trans hend⟩
      · simp only [HeaderInv, hend, if_false, hp]
        exact ⟨hhlit, by omega⟩

theorem execClRepPrev_invButReader (hp : s.phase = .dynLens) (extra : BitVec 2) :
    NextHas State.InvButReader (execClRepPrev extra s) := by
  unfold execClRepPrev
  split_ifs
  · exact nextHas_next.2 (failStructural_invButReader (by decide) s)
  · exact storeLengths_invButReader hs hm hp _ _

theorem stepClBuild_invButReader (hp : s.phase = .dynClBuild) : (stepClBuild s).InvButReader := by
  have hhlit : litLenCount s.hlit ≤ 286 := by simpa only [HeaderInv, hp] using hs.header
  unfold stepClBuild
  split
  · exact failStructural_invButReader (by decide) s
  · exact State.Sound.invButReader ⟨nofun, hs.no_failure, hs.sink, hhlit, Nat.succ_pos _⟩ hm

theorem stepBuild_invButReader : (stepBuild s).InvButReader := by
  unfold stepBuild
  split
  · exact failStructural_invButReader (by decide) s
  · split
    · exact failStructural_invButReader (by decide) _
    · exact State.Sound.invButReader ⟨nofun, hs.no_failure, hs.sink, trivial⟩ hm

end

/-- A length code leaves its length pending and changes nothing else (47_symbols.md R363); every other element keeps the
invariant, a distance with a length pending. -/
theorem exec_invButReader {s : State} (hs : s.Sound) (i : Instr) (hp : s.phase = phaseTaking i.format)
    (hm : i.format = .d ∨ s.matchLen = none) :
    (i.format = .ll ∧ ∃ len, exec i s = .next { s with matchLen := some len }) ∨
      NextHas State.InvButReader (exec i s) := by
  have hnone : i.format ≠ .d → s.matchLen = none := hm.resolve_left
  cases i
  case blockStored | blockFixed | blockDynamic =>
    exact .inr (nextHas_next.2 (State.Sound.invButReader ⟨nofun, hs.no_failure, hs.sink, trivial⟩ (hnone nofun)))
  case blockReserved | llInvalid286 | llInvalid287 | distInvalid30 | distInvalid31 =>
    exact .inr (nextHas_next.2 (failStructural_invButReader (by decide) _))
  case storedHdr len nlen => exact .inr (execStoredHdr_invButReader hs (hnone nofun) len nlen)
  case storedByte b => exact .inr (execStoredByte_invButReader hs (hnone nofun) hp b)
  case dynHdr hlit hdist hclen => exact .inr (execDynHdr_invButReader hs (hnone nofun) hlit hdist hclen)
  case clLength len => exact .inr (execClLength_invButReader hs (hnone nofun) hp len)
  case clRepPrev extra => exact .inr (execClRepPrev_invButReader hs (hnone nofun) hp extra)
  case clLen | clRepZeroShort | clRepZeroLong =>
    exact .inr (storeLengths_invButReader hs (hnone nofun) hp _ _)
  case lit b =>
    have hsound : (appendByte b s).Sound := ⟨hs.phase_ne, hs.no_failure, hs.sink.append b, hs.header⟩
    exact .inr (nextHas_next.2 (hsound.invButReader (hnone nofun)))
  case eob => exact .inr (nextHas_next.2 (endBlock_invButReader hs.no_failure hs.sink (hnone nofun)))
  case len257 | len258 | len259 | len260 | len261 | len262 | len263 | len264 | len265 | len266 | len267 | len268 |
      len269 | len270 | len271 | len272 | len273 | len274 | len275 | len276 | len277 | len278 | len279 | len280 |
      len281 | len282 | len283 | len284 | len285 =>
    exact .inl ⟨rfl, _, rfl⟩
  all_goals exact .inr (copyMatch_invButReader hs _ _)

/-! ### A whole step keeps the invariant -/

theorem decodeErrorCause_ne_none (e : DecodeError) : decodeErrorCause e ≠ .none := by cases e <;> decide

/-- Inside a SYM step: a length code has been read, and its distance is still to come (47_symbols.md R373). -/
structure LengthPending (u : State) : Prop where
  sound : u.Sound
  reader : ReaderInv u
  phase_eq : u.phase = .sym
  pending : u.matchLen.isSome = true

/-- A meaning that leaves the reader alone keeps the whole invariant once it keeps the rest of it. -/
theorem inv_of_invButReader {s t : State} {o : Result} (hr : ReaderInv s) (hlive : s.phase.live = true)
    (hkeeps : KeepsReader s o) (ho : NextHas State.InvButReader o) (h : o = .next t) : t.Inv := by
  obtain ⟨hinput, hbr⟩ := hkeeps t h
  exact ho t h fun hp => hr.of_kept hlive hinput (hbr.resolve_left fun hfailed => hp hfailed.1)

/-- Fetching and running an element keeps the invariant, but for a length code. -/
theorem runElement_inv {s : State} {c : Context} (hs : s.Sound) (hr : ReaderInv s) (hp : s.phase = phaseTaking c.format)
    (hm : c.format = .d ∨ s.matchLen = none) :
    (c.format = .ll ∧ ∃ u, runElement c s = .next u ∧ LengthPending u) ∨ NextHas State.Inv (runElement c s) := by
  rcases runElement_cases c s with ⟨i, r, hd, hrun⟩ | ⟨e, r, -, hrun⟩ | ⟨r, -, hrun⟩ <;> rw [hrun]
  · have hformat : i.format = c.format := decodeElement_format hd
    have hreader : ReaderInv (s.withReader r) := hr.withReader hd
    have hsound : (s.withReader r).Sound := ⟨hs.phase_ne, hs.no_failure, hs.sink, hs.header⟩
    rw [← hformat] at hp hm ⊢
    have hlive : (s.withReader r).phase.live = true := by simp [hp, phaseTaking_live]
    rcases exec_invButReader hsound i hp hm with ⟨hll, len, hexec⟩ | hkeeps
    · exact .inl ⟨hll, _, hexec, ⟨hs.phase_ne, hs.no_failure, hs.sink, hs.header⟩,
        hreader.of_kept hlive rfl rfl, by simp [hp, hll, phaseTaking], rfl⟩
    · exact .inr fun t h => inv_of_invButReader hreader hlive (exec_keepsReader i _) hkeeps h
  · exact .inr (nextHas_next.2 (failStructural_inv _ (decodeErrorCause_ne_none e) _))
  · exact .inr (nextHas_next.2 (failExhausted_inv _))

theorem runElement_inv_of_ne_ll {s : State} {c : Context} (hc : c.format ≠ .ll) (hs : s.Sound) (hr : ReaderInv s)
    (hp : s.phase = phaseTaking c.format) (hm : c.format = .d ∨ s.matchLen = none) :
    NextHas State.Inv (runElement c s) :=
  (runElement_inv hs hr hp hm).resolve_left fun hll => hc hll.1

/-- After a length code the distance element restores the invariant; any other symbol has kept it (47_symbols.md
R378). -/
theorem finishPair_inv_of_sym {s : State} (hs : s.Sound) (hr : ReaderInv s) (hp : s.phase = .sym)
    (hm : s.matchLen = none) :
    NextHas State.Inv (finishPair (runElement (.litLen (litLenTree s)) s)) := by
  rcases runElement_inv (c := .litLen (litLenTree s)) hs hr hp (.inr hm) with ⟨-, u, hrun, hu⟩ | hkeeps
  · rw [hrun, finishPair, if_pos hu.pending]
    exact runElement_inv_of_ne_ll nofun hu.sound hu.reader hu.phase_eq (.inl rfl)
  · cases hrun : runElement (.litLen (litLenTree s)) s with
    | next u =>
      have hu : u.Inv := hkeeps u hrun
      simpa [finishPair, hu.no_pending] using hu
    | fault f => simp [finishPair]
    | refused r => simp [finishPair, NextHas]

theorem step_inv_of_build {s : State} (hs : s.Inv) (hp : s.phase = .dynClBuild ∨ s.phase = .dynBuild) :
    NextHas State.Inv (step s) := by
  have hlive : s.phase.live = true := by rcases hp with hp | hp <;> rw [hp] <;> rfl
  have hne : s.phase ≠ .failed := fun h => by simp [h, Phase.live] at hlive
  have hsound : s.Sound := hs.sound hne
  have hkeeps : NextHas State.InvButReader (step s) := by
    rcases hp with hp | hp
    · exact step_clBuild hp ▸ nextHas_next.2 (stepClBuild_invButReader hsound hs.no_pending hp)
    · exact step_build hp ▸ nextHas_next.2 (stepBuild_invButReader hsound hs.no_pending)
  exact fun t h => inv_of_invButReader (hs.reader hne) hlive (step_keepsReader_of_build hp) hkeeps h

/-- Settles O3: a build and an element keep the invariant; in SYM a length code and its distance do together. -/
theorem stepKeepsInvariant : Obligations.StepKeepsInvariant := by
  intro s t hs h
  by_cases hbuild : s.phase = .dynClBuild ∨ s.phase = .dynBuild
  · exact step_inv_of_build hs hbuild t h
  · obtain ⟨hcl, hb⟩ := not_or.1 hbuild
    obtain ⟨c, hc⟩ := elementContext_of_step hcl hb h
    have hp : s.phase = phaseTaking c.format := phase_of_elementContext hc
    have hne : s.phase ≠ .failed := fun hfailed => by simp [elementContext, hfailed] at hc
    have hsound : s.Sound := hs.sound hne
    have hreader : ReaderInv s := hs.reader hne
    by_cases hsym : s.phase = .sym
    · exact finishPair_inv_of_sym hsound hreader hsym hs.no_pending t (step_sym hsym hs.no_pending ▸ h)
    · have hll : c.format ≠ .ll := fun hll => hsym (by rw [hp, hll]; rfl)
      exact runElement_inv_of_ne_ll hll hsound hreader hp (.inr hs.no_pending) t (step_element hsym hc ▸ h)

end Sys2Proof.Machine

namespace Sys2Proof.Machine

/-! ### A fetch that takes exactly its bits and answers a value -/

/-- From every ready reader with `bits` to come, `f` answers `v`, takes exactly `bits` and leaves a ready reader. -/
def Delivers {α : Type} (inp : List Byte) (f : BitReader → Fetched α) (bits : List Bool) (v : α) : Prop :=
  ∀ (r : BitReader) (rest : List Bool), ReaderReady inp r → upcoming inp r = bits ++ rest →
    ∃ r', f r = .ok v r' ∧ upcoming inp r' = rest ∧ ReaderReady inp r'

section
variable {inp : List Byte}

theorem delivers_ok {α : Type} (v : α) : Delivers inp (fun r => .ok v r) [] v :=
  fun r _ hr hu => ⟨r, rfl, hu, hr⟩

theorem Delivers.andThen {α β : Type} {f : BitReader → Fetched α} {k : α → BitReader → Fetched β} {bits more : List Bool}
    {v : α} {w : β} (hf : Delivers inp f bits v) (hk : Delivers inp (k v) more w) :
    Delivers inp (fun r => (f r).andThen k) (bits ++ more) w := by
  intro r rest hr hu
  obtain ⟨r1, h1, hu1, hr1⟩ := hf r (more ++ rest) hr (by rw [hu, List.append_assoc])
  obtain ⟨r2, h2, hrest⟩ := hk r1 rest hr1 hu1
  exact ⟨r2, by simp only [h1, Fetched.andThen_ok, h2], hrest⟩

theorem Delivers.map {α β : Type} {f : BitReader → Fetched α} {bits : List Bool} {v : α} (hf : Delivers inp f bits v)
    (g : α → β) : Delivers inp (fun r => (f r).map g) bits (g v) := by
  intro r rest hr hu
  obtain ⟨r1, h1, hrest⟩ := hf r rest hr hu
  exact ⟨r1, by simp only [h1, Fetched.map_ok], hrest⟩

theorem fetchBit_delivers (b : Bool) : Delivers inp (fetchBit inp) [b] b := by
  intro r rest hr hu
  obtain ⟨r1, h1, hu1, hx1, hc1⟩ := fetchBit_of_upcoming hr.not_exhausted hr.cnt_le hr.length_lt hu
  exact ⟨r1, h1, hu1, hx1, hc1, hr.length_lt⟩

/-- A value is its bit 0 below the value of its other bits. -/
theorem concat_extractLsb'_getLsbD {n : Nat} (v : BitVec (n + 1)) :
    (BitVec.extractLsb' 1 n v).concat (v.getLsbD 0) = v :=
  fieldBits_injective (by rw [fieldBits_concat, fieldBits_succ])

/-- 41_bitreader.md R203: fetchBits reads a field back from its bits. -/
theorem fetchBits_delivers {n : Nat} (v : BitVec n) : Delivers inp (fetchBits inp n) (fieldBits v) v := by
  induction n with
  | zero => exact Subsingleton.elim 0#0 v ▸ delivers_ok 0#0
  | succ n ih =>
    have hv := (fetchBit_delivers (inp := inp) (v.getLsbD 0)).andThen
      (k := fun b r => (fetchBits inp n r).map fun u => u.concat b)
      ((ih (BitVec.extractLsb' 1 n v)).map fun u => u.concat (v.getLsbD 0))
    rwa [concat_extractLsb'_getLsbD] at hv

/-! ### The walk of decode (43_huffman.md R249) -/

theorem decodeFrom_delivers {t : Trie} {code : List Bool} {symbol : Nat} (h : t.walk code = .leaf symbol) :
    Delivers inp (decodeFrom inp t) code (some symbol) := by
  induction code generalizing t with
  | nil =>
    obtain rfl : t = .leaf symbol := h
    exact delivers_ok _
  | cons b code ih =>
    cases t with
    | absent | leaf s => simp at h
    | node zero one =>
      rw [funext (decodeFrom_node inp zero one)]
      exact (fetchBit_delivers b).andThen (k := fun b => decodeFrom inp (Trie.child b (.node zero one))) (ih h)

/-- 43_huffman.md R252: decode reads a symbol back from the code its tree gives it. -/
theorem decodeSymbol_delivers {t : Trie} {code : List Bool} {symbol : Nat} (h : t.codeOf symbol = some code) :
    Delivers inp (decodeSymbol inp t) code (some symbol) := by
  cases t with
  | absent | leaf s => cases h
  | node zero one =>
    rw [funext (decodeSymbol_node inp zero one)]
    exact decodeFrom_delivers (Trie.walk_codeBelow h)

/-! ### Coded elements: the symbol's code, then the extra bits (30_encoding.md R167) -/

theorem noExtra_delivers (i : Instr) : Delivers inp (noExtra i) [] (.ok i) := delivers_ok _

theorem withExtra_delivers {n : Nat} (mk : BitVec n → Instr) (e : BitVec n) :
    Delivers inp (withExtra n mk inp) (fieldBits e) (.ok (mk e)) :=
  (fetchBits_delivers e).map _

theorem codedElement_delivers {tree : Trie} {invalid : DecodeError} {element : Nat → List Byte → BitReader → Decoded}
    {symbol : Nat} {code extra : List Bool} {i : Instr} (hcode : tree.codeOf symbol = some code)
    (helement : Delivers inp (element symbol inp) extra (.ok i)) :
    Delivers inp (codedElement tree invalid element inp) (code ++ extra) (.ok i) :=
  (decodeSymbol_delivers hcode).andThen helement

theorem clElement_literalLength (hasPrev : Bool) (len : BitVec 4) :
    clElement hasPrev len.toNat inp = noExtra (.clLen len) := by
  have hle : len.toNat ≤ 15 := Nat.le_of_lt_succ len.isLt
  funext r
  simp [clElement, hle]

theorem litLenElement_literal (b : BitVec 8) : litLenElement b.toNat inp = noExtra (.lit b) := by
  have hle : b.toNat ≤ 255 := Nat.le_of_lt_succ b.isLt
  funext r
  simp [litLenElement, hle]

/-- 30_encoding.md R147: but for symbol 16 with no previous length, whose check comes before its extra bits
(46_dynamic_header.md R339). -/
theorem clElement_delivers {hasPrev : Bool} {i : Instr} (hcls : i.format = .cls)
    (hprev : ¬ (i.symbol = 16 ∧ hasPrev = false)) :
    Delivers inp (clElement hasPrev i.symbol inp) i.extraBits (.ok i) := by
  cases i <;> cases hcls
  case clLen len => exact clElement_literalLength (inp := inp) hasPrev len ▸ noExtra_delivers (.clLen len)
  case clRepPrev e =>
    have htrue : hasPrev = true := by simpa [Instr.symbol] using hprev
    exact htrue ▸ withExtra_delivers .clRepPrev e
  case clRepZeroShort e => exact withExtra_delivers .clRepZeroShort e
  case clRepZeroLong e => exact withExtra_delivers .clRepZeroLong e

theorem clElement_noPrevious_delivers {i : Instr} (hcls : i.format = .cls) (h16 : i.symbol = 16)
    (hextra : i.extraValue = 0) : Delivers inp (clElement false 16 inp) [] (.ok i) := by
  cases i <;> cases hcls
  case clLen len => exact absurd h16 (Nat.ne_of_lt len.isLt)
  case clRepPrev e =>
    obtain rfl : e = 0#2 := BitVec.eq_of_toNat_eq hextra
    exact noExtra_delivers _
  case clRepZeroShort | clRepZeroLong => cases h16

theorem litLenElement_delivers {i : Instr} (hll : i.format = .ll) :
    Delivers inp (litLenElement i.symbol inp) i.extraBits (.ok i) := by
  cases i <;> cases hll
  case lit b => exact litLenElement_literal (inp := inp) b ▸ noExtra_delivers (.lit b)
  case len265 e | len266 e | len267 e | len268 e | len269 e | len270 e | len271 e | len272 e | len273 e | len274 e |
      len275 e | len276 e | len277 e | len278 e | len279 e | len280 e | len281 e | len282 e | len283 e | len284 e =>
    exact withExtra_delivers _ e
  all_goals exact noExtra_delivers _

theorem distElement_delivers {i : Instr} (hd : i.format = .d) :
    Delivers inp (distElement i.symbol inp) i.extraBits (.ok i) := by
  cases i <;> cases hd
  case dist0 | dist1 | dist2 | dist3 | distInvalid30 | distInvalid31 => exact noExtra_delivers _
  all_goals exact withExtra_delivers _ _

/-! ### Elements of a fixed format (30_encoding.md R141 to R145) -/

theorem headerElement_of_format {i : Instr} (h : i.format = .bh) :
    ∃ v, i = headerElement v ∧ i.fixedBits = some (fieldBits v) := by
  cases i <;> cases h
  case blockStored final => exact ⟨(0#2).concat final, by cases final <;> rfl, by cases final <;> rfl⟩
  case blockFixed final => exact ⟨(1#2).concat final, by cases final <;> rfl, by cases final <;> rfl⟩
  case blockDynamic final => exact ⟨(2#2).concat final, by cases final <;> rfl, by cases final <;> rfl⟩
  case blockReserved final => exact ⟨(3#2).concat final, by cases final <;> rfl, by cases final <;> rfl⟩

theorem storedHdr_of_format {i : Instr} (h : i.format = .sh) : ∃ len nlen, i = .storedHdr len nlen := by
  cases i <;> cases h
  exact ⟨_, _, rfl⟩

theorem storedByte_of_format {i : Instr} (h : i.format = .sb) : ∃ b, i = .storedByte b := by
  cases i <;> cases h
  exact ⟨_, rfl⟩

theorem dynHdr_of_format {i : Instr} (h : i.format = .dh) : ∃ hlit hdist hclen, i = .dynHdr hlit hdist hclen := by
  cases i <;> cases h
  exact ⟨_, _, _, rfl⟩

theorem clLength_of_format {i : Instr} (h : i.format = .cll) : ∃ len, i = .clLength len := by
  cases i <;> cases h
  exact ⟨_, rfl⟩

/-! ### The round trip -/

theorem encode_format {c : Context} {i : Instr} {bits : List Bool} (h : encode c i = some bits) :
    i.format = c.format := by
  by_contra hne
  simp [encode, hne] at h

theorem encodeCoded_eq_some {tree : Trie} {i : Instr} {bits : List Bool} (h : encodeCoded tree i = some bits) :
    ∃ code, tree.codeOf i.symbol = some code ∧ bits = code ++ i.extraBits := by
  obtain ⟨code, hcode, rfl⟩ := Option.map_eq_some_iff.1 h
  exact ⟨code, hcode, rfl⟩

theorem encode_litLen {tree : Trie} {i : Instr} (hll : i.format = .ll) :
    encode (.litLen tree) i = encodeCoded tree i := by simp [encode, hll, Context.format]

theorem encode_dist {tree : Trie} {i : Instr} (hd : i.format = .d) :
    encode (.dist tree) i = encodeCoded tree i := by simp [encode, hd, Context.format]

theorem encode_clSymbol {tree : Trie} {hasPrev : Bool} {i : Instr} (hcls : i.format = .cls)
    (hprev : ¬ (i.symbol = 16 ∧ hasPrev = false)) :
    encode (.clSymbol tree hasPrev) i = encodeCoded tree i := by simp [encode, hcls, Context.format, hprev]

theorem encode_clSymbol_noPrevious {tree : Trie} {i : Instr} (hcls : i.format = .cls) (h16 : i.symbol = 16) :
    encode (.clSymbol tree false) i = if i.extraValue = 0 then tree.codeOf 16 else none := by
  simp [encode, hcls, Context.format, h16]

theorem headerContext_delivers {i : Instr} {bits : List Bool} (h : encode .header i = some bits) :
    Delivers inp (decodeElement .header inp) bits (.ok i) := by
  have hbh : i.format = .bh := encode_format h
  obtain ⟨v, rfl, hv⟩ := headerElement_of_format hbh
  obtain rfl : fieldBits v = bits := by simpa [encode, hbh, Context.format, hv] using h
  exact (fetchBits_delivers v).map _

theorem storedByteContext_delivers {i : Instr} {bits : List Bool} (h : encode .storedByte i = some bits) :
    Delivers inp (decodeElement .storedByte inp) bits (.ok i) := by
  obtain ⟨b, rfl⟩ := storedByte_of_format (encode_format h)
  cases h
  exact (fetchBits_delivers b).map _

theorem dynHeaderContext_delivers {i : Instr} {bits : List Bool} (h : encode .dynHeader i = some bits) :
    Delivers inp (decodeElement .dynHeader inp) bits (.ok i) := by
  obtain ⟨hlit, hdist, hclen, rfl⟩ := dynHdr_of_format (encode_format h)
  cases h
  rw [List.append_assoc]
  exact (fetchBits_delivers hlit).andThen ((fetchBits_delivers hdist).andThen ((fetchBits_delivers hclen).map _))

theorem clLengthContext_delivers {i : Instr} {bits : List Bool} (h : encode .clLength i = some bits) :
    Delivers inp (decodeElement .clLength inp) bits (.ok i) := by
  obtain ⟨len, rfl⟩ := clLength_of_format (encode_format h)
  cases h
  exact (fetchBits_delivers len).map _

theorem clSymbolContext_delivers {tree : Trie} {hasPrev : Bool} {i : Instr} {bits : List Bool}
    (h : encode (.clSymbol tree hasPrev) i = some bits) :
    Delivers inp (decodeElement (.clSymbol tree hasPrev) inp) bits (.ok i) := by
  have hcls : i.format = .cls := encode_format h
  by_cases hprev : i.symbol = 16 ∧ hasPrev = false
  · obtain ⟨h16, rfl⟩ := hprev
    rw [encode_clSymbol_noPrevious hcls h16] at h
    obtain ⟨hextra, hcode⟩ := Option.ite_none_right_eq_some.1 h
    rw [← List.append_nil bits]
    exact codedElement_delivers hcode (clElement_noPrevious_delivers hcls h16 hextra)
  · rw [encode_clSymbol hcls hprev] at h
    obtain ⟨code, hcode, rfl⟩ := encodeCoded_eq_some h
    exact codedElement_delivers hcode (clElement_delivers hcls hprev)

theorem litLenContext_delivers {tree : Trie} {i : Instr} {bits : List Bool} (h : encode (.litLen tree) i = some bits) :
    Delivers inp (decodeElement (.litLen tree) inp) bits (.ok i) := by
  have hll : i.format = .ll := encode_format h
  obtain ⟨code, hcode, rfl⟩ := encodeCoded_eq_some (encode_litLen hll ▸ h)
  exact codedElement_delivers hcode (litLenElement_delivers hll)

theorem distContext_delivers {tree : Trie} {i : Instr} {bits : List Bool} (h : encode (.dist tree) i = some bits) :
    Delivers inp (decodeElement (.dist tree) inp) bits (.ok i) := by
  have hd : i.format = .d := encode_format h
  obtain ⟨code, hcode, rfl⟩ := encodeCoded_eq_some (encode_dist hd ▸ h)
  exact codedElement_delivers hcode (distElement_delivers hd)

/-- After alignment (20_memory.md R110, R111). -/
theorem storedFields_delivers (len nlen : BitVec 16) :
    Delivers inp (fun r => (fetchBits inp 16 r).andThen fun l r1 =>
      (fetchBits inp 16 r1).map fun n => (.ok (.storedHdr l n) : Except DecodeError Instr))
      (fieldBits len ++ fieldBits nlen) (.ok (.storedHdr len nlen)) :=
  (fetchBits_delivers len).andThen ((fetchBits_delivers nlen).map _)

end

theorem ReaderReady.moveToByteBoundary {inp : List Byte} {r : BitReader} (h : ReaderReady inp r) :
    ReaderReady inp (moveToByteBoundary r) := ⟨h.not_exhausted, Nat.zero_le 7, h.length_lt⟩

/-- Settles O31: the fields of a fixed format, or the code and the extra bits of a coded one, fetch by fetch. -/
theorem decodeOfEncodeIsIdentity : Obligations.DecodeOfEncodeIsIdentity := by
  intro c i bits rest inp r hr h hu
  cases c with
  | header => exact headerContext_delivers h r rest hr hu
  | storedHeader =>
    obtain ⟨len, nlen, rfl⟩ := storedHdr_of_format (encode_format h)
    cases h
    exact storedFields_delivers len nlen (moveToByteBoundary r) rest hr.moveToByteBoundary hu
  | storedByte => exact storedByteContext_delivers h r rest hr hu
  | dynHeader => exact dynHeaderContext_delivers h r rest hr hu
  | clLength => exact clLengthContext_delivers h r rest hr hu
  | clSymbol tree hasPrev => exact clSymbolContext_delivers h r rest hr hu
  | litLen tree => exact litLenContext_delivers h r rest hr hu
  | dist tree => exact distContext_delivers h r rest hr hu

/-! ### The fixed trees (30_encoding.md R153, R154) -/

/-- Every leaf holds a symbol below `n`. -/
def Trie.symbolsBelow (n : Nat) : Trie → Bool
  | .absent => true
  | .leaf s => decide (s < n)
  | .node zero one => zero.symbolsBelow n && one.symbolsBelow n

theorem Trie.codeBelow_of_symbolsBelow {n symbol : Nat} {t : Trie} (h : t.symbolsBelow n = true) (hle : n ≤ symbol) :
    t.codeBelow symbol = none := by
  induction t with
  | absent => rfl
  | leaf s =>
    have hs : s < n := by simpa [Trie.symbolsBelow] using h
    simp [Trie.codeBelow, Nat.ne_of_lt (Nat.lt_of_lt_of_le hs hle)]
  | node zero one ihzero ihone =>
    obtain ⟨hzero, hone⟩ : zero.symbolsBelow n = true ∧ one.symbolsBelow n = true := by
      simpa [Trie.symbolsBelow] using h
    simp [Trie.codeBelow, ihzero hzero, ihone hone]

theorem Trie.codeOf_of_symbolsBelow {n symbol : Nat} {t : Trie} (h : t.symbolsBelow n = true) (hle : n ≤ symbol) :
    t.codeOf symbol = none := by
  cases t with
  | absent | leaf s => rfl
  | node zero one => exact Trie.codeBelow_of_symbolsBelow h hle

/-- The rows of the fixed literal/length table (30_encoding.md R153). -/
theorem fixedLitLen_codeOf_of_le_143 : ∀ s ≤ 143, fixedLitLen.codeOf s = some (codeBits (0x30 + s) 8) := by
  decide +kernel

theorem fixedLitLen_codeOf_of_le_255 :
    ∀ s ≤ 255, 144 ≤ s → fixedLitLen.codeOf s = some (codeBits (0x190 + (s - 144)) 9) := by
  decide +kernel

theorem fixedLitLen_codeOf_of_le_279 :
    ∀ s ≤ 279, 256 ≤ s → fixedLitLen.codeOf s = some (codeBits (s - 256) 7) := by
  decide +kernel

theorem fixedLitLen_codeOf_of_le_285 :
    ∀ s ≤ 285, 280 ≤ s → fixedLitLen.codeOf s = some (codeBits (0xC0 + (s - 280)) 8) := by
  decide +kernel

/-- 90_conflicts.md C2: symbols 286 and 287 take code space and have no leaf. -/
theorem fixedLitLen_symbolsBelow : fixedLitLen.symbolsBelow 286 = true := by decide +kernel

theorem fixedDist_codeOf_of_le_29 : ∀ c ≤ 29, fixedDist.codeOf c = some (codeBits c 5) := by decide +kernel

theorem fixedDist_symbolsBelow : fixedDist.symbolsBelow 30 = true := by decide +kernel

/-- Settles O30: the codes row by row below symbols 286 and 30, and no leaf from there on. -/
theorem fixedTreesHoldTheFixedCodes : Obligations.FixedTreesHoldTheFixedCodes := by
  refine ⟨fun s => ?_, fun c => ?_, by decide +kernel, by decide +kernel⟩
  · split_ifs with h143 h255 h279 h285
    · exact fixedLitLen_codeOf_of_le_143 s h143
    · exact fixedLitLen_codeOf_of_le_255 s h255 (by omega)
    · exact fixedLitLen_codeOf_of_le_279 s h279 (by omega)
    · exact fixedLitLen_codeOf_of_le_285 s h285 (by omega)
    · exact Trie.codeOf_of_symbolsBelow fixedLitLen_symbolsBelow (by omega)
  · split_ifs with h29
    · exact fixedDist_codeOf_of_le_29 c h29
    · exact Trie.codeOf_of_symbolsBelow fixedDist_symbolsBelow (by omega)

/-! ### Every element in some context, and the spec's words -/

theorem encodeCoded_of_codeOf {tree : Trie} {i : Instr} {code : List Bool} (h : tree.codeOf i.symbol = some code) :
    encodeCoded tree i = some (code ++ i.extraBits) := by simp [encodeCoded, h]

/-- 43_huffman.md R253: the one symbol of a one-leaf tree has the code 0. -/
theorem Trie.codeOf_single (symbol : Nat) : (Trie.single symbol).codeOf symbol = some [false] := by
  simp [Trie.single, Trie.codeOf, Trie.codeBelow]

theorem encodeCoded_single (i : Instr) : encodeCoded (.single i.symbol) i = some (false :: i.extraBits) :=
  encodeCoded_of_codeOf (Trie.codeOf_single i.symbol)

/-- Settles O32: a coded element in the tree of its symbol alone, any other by its fields. -/
theorem everyElementHasAnEncoding : Obligations.EveryElementHasAnEncoding := by
  intro i
  cases hf : i.format with
  | bh =>
    obtain ⟨v, -, hv⟩ := headerElement_of_format hf
    exact ⟨.header, fieldBits v, rfl, by simpa [encode, hf, Context.format] using hv, nofun⟩
  | sh =>
    obtain ⟨len, nlen, rfl⟩ := storedHdr_of_format hf
    exact ⟨.storedHeader, _, rfl, rfl, nofun⟩
  | sb =>
    obtain ⟨b, rfl⟩ := storedByte_of_format hf
    exact ⟨.storedByte, _, rfl, rfl, nofun⟩
  | dh =>
    obtain ⟨hlit, hdist, hclen, rfl⟩ := dynHdr_of_format hf
    exact ⟨.dynHeader, _, rfl, rfl, nofun⟩
  | cll =>
    obtain ⟨len, rfl⟩ := clLength_of_format hf
    exact ⟨.clLength, _, rfl, rfl, nofun⟩
  | cls => exact ⟨.clSymbol (.single i.symbol) true, _, rfl,
      (encode_clSymbol (hasPrev := true) hf (by simp)).trans (encodeCoded_single i), nofun⟩
  | ll => exact ⟨.litLen (.single i.symbol), _, rfl, (encode_litLen hf).trans (encodeCoded_single i), nofun⟩
  | d => exact ⟨.dist (.single i.symbol), _, rfl, (encode_dist hf).trans (encodeCoded_single i), nofun⟩

/-- A fresh reader decodes what begins with an element's encoding. -/
theorem decodeElement_fresh {c : Context} {i : Instr} {inp : List Byte} {bits : List Bool} (rest : List Bool)
    (henc : encode c i = some bits) (hlen : inp.length < Config.inputLimit)
    (hu : upcoming inp (c.entry (BitReader.fresh 0)) = bits ++ rest) :
    ∃ q, decodeElement c inp (BitReader.fresh 0) = .ok (.ok i) q := by
  obtain ⟨q, hq, -⟩ := decodeOfEncodeIsIdentity c i bits rest inp (BitReader.fresh 0) ⟨rfl, by decide, hlen⟩ henc hu
  exact ⟨q, hq⟩

/-- Settles O33: each word is the encoding of its element (by the round trip, O31), the coded ones by the fixed codes of
30_encoding.md R153 and R154. -/
theorem specWordsDecode : Obligations.SpecWordsDecode := by
  have hlit : encode (.litLen fixedLitLen) (.lit 0x61#8) = some (codeBits (0x30 + 0x61) 8 ++ []) :=
    (encode_litLen rfl).trans (encodeCoded_of_codeOf (fixedLitLen_codeOf_of_le_143 0x61 (by decide)))
  have hlen : encode (.litLen fixedLitLen) .len263 = some (codeBits 7 7 ++ []) :=
    (encode_litLen rfl).trans (encodeCoded_of_codeOf (fixedLitLen_codeOf_of_le_279 263 (by decide) (by decide)))
  have hdist : encode (.dist fixedDist) (.dist29 8191#13) = some (codeBits 29 5 ++ fieldBits 8191#13) :=
    (encode_dist rfl).trans (encodeCoded_of_codeOf (fixedDist_codeOf_of_le_29 29 (by decide)))
  exact ⟨decodeElement_fresh [true, false, false, true, false] rfl (by decide) (by decide),
    decodeElement_fresh [false, false, false, false, false] rfl (by decide) (by decide),
    decodeElement_fresh [] rfl (by decide) (by decide),
    decodeElement_fresh [] hlit (by decide) (by decide),
    decodeElement_fresh [false] hlen (by decide) (by decide),
    decodeElement_fresh (List.replicate 6 false) hdist (by decide) (by decide)⟩

/-! ### The operand tables (30_encoding.md R151, R152) -/

/-- Settles O47: MATCH_LEN is LBASE of the code, an entry of the table, plus the extra value. -/
theorem lengthCodesGiveTheLengths : Obligations.LengthCodesGiveTheLengths := by
  intro s
  have gives {code base e : Nat} (hbase : lbase code = base) :
      setMatchLength code e s = .next { s with matchLen := some (base + e) } := hbase ▸ rfl
  exact ⟨⟨gives rfl, gives rfl, gives rfl, gives rfl, gives rfl, gives rfl, gives rfl, gives rfl, gives rfl⟩,
    fun e => ⟨gives rfl, gives rfl, gives rfl, gives rfl⟩, fun e => ⟨gives rfl, gives rfl, gives rfl, gives rfl⟩,
    fun e => ⟨gives rfl, gives rfl, gives rfl, gives rfl⟩, fun e => ⟨gives rfl, gives rfl, gives rfl, gives rfl⟩,
    fun e => ⟨gives rfl, gives rfl, gives rfl, gives rfl⟩⟩

theorem dext_eq_formula : ∀ c ≤ 29, dext c = if c < 4 then 0 else c / 2 - 1 := by decide

theorem dbase_succ : ∀ c < 29, dbase (c + 1) = dbase c + 2 ^ dext c := by decide

/-- Settles O49: the extra-bit counts and the steps between the bases, entry by entry, and the two ends. -/
theorem distanceRangesAreContiguous : Obligations.DistanceRangesAreContiguous :=
  ⟨dext_eq_formula, rfl, dbase_succ, rfl⟩

end Sys2Proof.Machine

namespace Sys2Proof.Machine

/-! ### Fixed-width fields (41_bitreader.md R201 to R206) -/

/-- A field of `n` bits that is delivered moves P by `n` (41_bitreader.md R203, 10_state.md R61). -/
theorem fetchBits_streamPosition {inp : List Byte} {n : Nat} {v : BitVec n} {r r' : BitReader}
    (hlen : inp.length < Config.inputLimit) (h : fetchBits inp n r = .ok v r') :
    streamPosition r' = streamPosition r + n := by
  induction n generalizing r with
  | zero => cases h; simp
  | succ n ih =>
    obtain ⟨b, r1, hbit, hfield⟩ := Fetched.andThen_eq_ok h
    obtain ⟨u, hu, -⟩ := Fetched.map_eq_ok hfield
    rw [ih hu, fetchBit_streamPosition hlen hbit]
    push_cast
    omega

/-- Comparing exact distances without a subtraction. -/
theorem streamPosition_eq_add_iff {r r' : BitReader} {n : Nat} :
    streamPosition r' = streamPosition r + n ↔
      8 * r'.consumed.toNat + r.cnt.toNat = 8 * r.consumed.toNat + r'.cnt.toNat + n := by
  unfold streamPosition
  omega

/-- A field whose first bit does not come does not come (41_bitreader.md R203). -/
theorem fetchBits_of_fetchBit_exhausted {inp : List Byte} {n : Nat} {r r' : BitReader} (hn : 1 ≤ n)
    (h : fetchBit inp r = .exhausted r') : fetchBits inp n r = .exhausted r' := by
  cases n with
  | zero => omega
  | succ n => rw [fetchBits_succ, h, Fetched.andThen_exhausted]

/-- Settles O20: the field's bits come one fetch after another, and each moves P by one. -/
theorem fieldsAreReadLsbFirst : Obligations.FieldsAreReadLsbFirst := by
  intro n v inp r rest hready hbits
  obtain ⟨r', hfetch, hrest, hready'⟩ := fetchBits_delivers v r rest hready hbits
  have hpos := fetchBits_streamPosition hready.length_lt hfetch
  exact ⟨r', hfetch, hrest, hready', streamPosition_eq_add_iff.1 hpos⟩

/-- Settles O21, by induction on the width: the first bit is not there, or it is taken and the rest is still too short. -/
theorem shortFetchExhausts : Obligations.ShortFetchExhausts := by
  intro n inp r hready hshort
  induction n generalizing r with
  | zero => omega
  | succ n ih =>
    cases hbits : upcoming inp r with
    | nil =>
      have hbit := fetchBit_of_no_bits hready.not_exhausted hready.cnt_le hbits
      exact ⟨_, fetchBits_of_fetchBit_exhausted (Nat.le_add_left 1 n) hbit, rfl⟩
    | cons b rest =>
      obtain ⟨r1, hbit, hrest, hready1⟩ := fetchBit_delivers b r rest hready hbits
      have hshort1 : (upcoming inp r1).length < n := by simpa [hbits, hrest] using hshort
      obtain ⟨r', hfield, hexh⟩ := ih r1 hready1 hshort1
      refine ⟨r', ?_, hexh⟩
      rw [fetchBits_succ, hbit, Fetched.andThen_ok, hfield, Fetched.map_exhausted]

/-- Settles O22: the first fetchBit fails and leaves the reader; a field of no bits makes no fetch. -/
theorem exhaustionIsPermanent : Obligations.ExhaustionIsPermanent := by
  intro inp r
  exact ⟨fun n hexh hn => fetchBits_of_fetchBit_exhausted hn (fetchBit_exhausted hexh), fetchBits_zero inp r⟩

/-- With the partial byte empty, the bits to come are those of the bytes not yet taken (20_memory.md R103). -/
theorem upcoming_of_cnt_eq_zero {inp : List Byte} {r : BitReader} (h : r.cnt = 0) :
    upcoming inp r = (inp.drop r.consumed.toNat).flatMap fieldBits := by
  simp [upcoming, h]

/-- At a byte boundary there is nothing to drop (20_memory.md R111). -/
theorem moveToByteBoundary_of_cnt_eq_zero {r : BitReader} (h : r.cnt = 0) : moveToByteBoundary r = r := by
  rw [moveToByteBoundary, ← h]

/-- Settles O23: alignment empties the partial byte and touches nothing else. -/
theorem alignmentDropsPartialByte : Obligations.AlignmentDropsPartialByte := by
  intro inp r
  exact ⟨upcoming_of_cnt_eq_zero (moveToByteBoundary_cnt r), moveToByteBoundary_consumed r, moveToByteBoundary_exh r,
    moveToByteBoundary_of_cnt_eq_zero⟩

end Sys2Proof.Machine

namespace Sys2Proof.Machine

/-! ### CRC-32 is linear over xor (42_crc32.md R220, R226) -/

/-- The polynomial enters once for each odd operand, and two of them cancel. -/
theorem crcBitStep_xor (a b : Word) : crcBitStep (a ^^^ b) = crcBitStep a ^^^ crcBitStep b := by
  unfold crcBitStep
  rw [BitVec.getLsbD_xor, BitVec.ushiftRight_xor_distrib]
  cases a.getLsbD 0 <;> cases b.getLsbD 0
  case false.false => rfl
  case false.true =>
    change Config.crcPoly ^^^ (a >>> 1 ^^^ b >>> 1) = a >>> 1 ^^^ (Config.crcPoly ^^^ b >>> 1)
    rw [← BitVec.xor_assoc, BitVec.xor_comm Config.crcPoly, BitVec.xor_assoc]
  case true.false => exact (BitVec.xor_assoc ..).symm
  case true.true =>
    change a >>> 1 ^^^ b >>> 1 = (Config.crcPoly ^^^ a >>> 1) ^^^ (Config.crcPoly ^^^ b >>> 1)
    rw [BitVec.xor_comm Config.crcPoly, BitVec.xor_assoc, ← BitVec.xor_assoc Config.crcPoly, BitVec.xor_self,
      BitVec.zero_xor]

theorem crcEightSteps_xor (a b : Word) : crcEightSteps (a ^^^ b) = crcEightSteps a ^^^ crcEightSteps b := by
  simp only [crcEightSteps, crcBitStep_xor]

theorem crcBitStep_of_even {c : Word} (h : c.getLsbD 0 = false) : crcBitStep c = c >>> 1 :=
  if_neg (by rw [h]; exact Bool.false_ne_true)

/-- While only 0 bits leave the register, the bit steps only shift it. -/
theorem iterate_crcBitStep_of_low_zero (n : Nat) (c : Word) (h : ∀ i < n, c.getLsbD i = false) :
    crcBitStep^[n] c = c >>> n := by
  induction n with
  | zero => rfl
  | succ n ih =>
    have heven : (c >>> n).getLsbD 0 = false := by simpa using h n (Nat.lt_succ_self n)
    rw [Function.iterate_succ_apply', ih fun i hi => h i (Nat.lt_succ_of_lt hi), crcBitStep_of_even heven,
      BitVec.shiftRight_add]

theorem crcEightSteps_of_low_byte_zero {c : Word} (h : ∀ i < 8, c.getLsbD i = false) : crcEightSteps c = c >>> 8 :=
  iterate_crcBitStep_of_low_zero 8 c h

/-- A word is its low byte and, above it, its other bits. -/
theorem lowByte_xor_highBytes (c : Word) : (c.setWidth 8).setWidth 32 ^^^ (c >>> 8) <<< 8 = c := by
  refine BitVec.eq_of_getLsbD_eq fun i hi => ?_
  by_cases h8 : i < 8
  · simp [hi, h8]
  · simp [hi, h8, show 8 + (i - 8) = i by omega]

/-- Shifting out a byte is one table lookup (42_crc32.md R221): the low byte drives the polynomial, the rest shifts. -/
theorem crcEightSteps_eq_crcT (c : Word) : crcEightSteps c = crcT (c.setWidth 8) ^^^ c >>> 8 := by
  have hlow : ∀ i < 8, ((c >>> 8) <<< 8).getLsbD i = false := fun i hi => by simp [hi]
  have hback : ((c >>> 8) <<< 8) >>> 8 = c >>> 8 := by
    refine BitVec.eq_of_getLsbD_eq fun i hi => ?_
    by_cases h : 8 + i < 32
    · simp [h]
    · simp [h, BitVec.getLsbD_of_ge c (8 + i) (by omega)]
  calc crcEightSteps c
      = crcEightSteps ((c.setWidth 8).setWidth 32 ^^^ (c >>> 8) <<< 8) := by rw [lowByte_xor_highBytes]
    _ = crcT (c.setWidth 8) ^^^ crcEightSteps ((c >>> 8) <<< 8) := crcEightSteps_xor ..
    _ = crcT (c.setWidth 8) ^^^ c >>> 8 := by rw [crcEightSteps_of_low_byte_zero hlow, hback]

/-- The byte added to a word does not reach the bits above it. -/
theorem xor_byte_ushiftRight_eight (c : Word) (b : Byte) : (c ^^^ b.setWidth 32) >>> 8 = c >>> 8 := by
  have hbyte : b.setWidth 32 >>> 8 = 0#32 := BitVec.eq_of_getLsbD_eq fun i _ => by simp
  rw [BitVec.ushiftRight_xor_distrib, hbyte, BitVec.xor_zero]

/-- Settles O24: the eight bit steps split into the table lookup of the low byte and the shift of the rest. -/
theorem crcTableMatchesBitwiseForm : Obligations.CrcTableMatchesBitwiseForm := by
  intro crc b
  rw [crcAddByteBitwise, crcEightSteps_eq_crcT, xor_byte_ushiftRight_eight, crcAddByte]

end Sys2Proof.Machine

namespace Sys2Proof.Machine

/-! ### Trie.place, bit by bit (43_huffman.md R241, R242) -/

/-- The node with the child along `b` replaced by `u`. -/
def Trie.setChild (t : Trie) (b : Bool) (u : Trie) : Trie :=
  if b then .node (t.child false) u else .node u (t.child true)

@[simp] theorem Trie.child_setChild_same (t : Trie) (b : Bool) (u : Trie) : (t.setChild b u).child b = u := by
  cases b <;> rfl

@[simp] theorem Trie.child_setChild_other (t : Trie) (b : Bool) (u : Trie) :
    (t.setChild b u).child (!b) = t.child (!b) := by
  cases b <;> rfl

@[simp] theorem Trie.setChild_ne_leaf (t : Trie) (b : Bool) (u : Trie) (q : Nat) : t.setChild b u ≠ .leaf q := by
  cases b <;> exact nofun

theorem Trie.place_nil_eq_none {symbol : Nat} {t : Trie} : t.place symbol [] = none ↔ t ≠ .absent := by
  cases t <;> simp [Trie.place]

/-- No code goes below a leaf or onto it. -/
@[simp] theorem Trie.place_leaf (symbol q : Nat) (code : List Bool) : (Trie.leaf q).place symbol code = none := by
  cases code <;> rfl

theorem Trie.place_absent_cons (symbol : Nat) (b : Bool) (code : List Bool) :
    Trie.absent.place symbol (b :: code) = (Trie.absent.place symbol code).map (Trie.absent.setChild b) := rfl

theorem Trie.place_node_cons (symbol : Nat) (b : Bool) (code : List Bool) (zero one : Trie) :
    (Trie.node zero one).place symbol (b :: code) =
      ((Trie.child b (.node zero one)).place symbol code).map ((Trie.node zero one).setChild b) := by
  cases b <;> rfl

/-- Away from a leaf, placing goes on in the child along the first bit. -/
theorem Trie.place_cons {t : Trie} (h : ∀ q, t ≠ .leaf q) (symbol : Nat) (b : Bool) (code : List Bool) :
    t.place symbol (b :: code) = ((t.child b).place symbol code).map (t.setChild b) := by
  cases t with
  | absent => exact Trie.place_absent_cons symbol b code
  | leaf q => exact absurd rfl (h q)
  | node zero one => exact Trie.place_node_cons symbol b code zero one

theorem Trie.place_cons_eq_some {symbol : Nat} {b : Bool} {code : List Bool} {t t' : Trie}
    (h : t.place symbol (b :: code) = some t') :
    (∀ q, t ≠ .leaf q) ∧ ∃ u, (t.child b).place symbol code = some u ∧ t' = t.setChild b u := by
  have hleaf : ∀ q, t ≠ .leaf q := by
    rintro q rfl
    simp at h
  rw [Trie.place_cons hleaf, Option.map_eq_some_iff] at h
  obtain ⟨u, hu, rfl⟩ := h
  exact ⟨hleaf, u, hu, rfl⟩

/-- The leaves after a placement are those before it and the placed one. -/
theorem Trie.walk_eq_leaf_of_place {symbol : Nat} {code : List Bool} {t t' : Trie} (h : t.place symbol code = some t')
    (p : List Bool) (q : Nat) : t'.walk p = .leaf q ↔ t.walk p = .leaf q ∨ (p = code ∧ q = symbol) := by
  induction code generalizing t t' p with
  | nil =>
    obtain rfl : t = .absent := by
      by_contra habsent
      simp [Trie.place_nil_eq_none.2 habsent] at h
    cases h
    cases p <;> simp [eq_comm]
  | cons b code ih =>
    obtain ⟨hleaf, u, hu, rfl⟩ := Trie.place_cons_eq_some h
    cases p with
    | nil => simp [hleaf q]
    | cons c p =>
      by_cases hc : c = b
      · subst hc
        simpa using ih hu p
      · obtain rfl : c = !b := Bool.eq_not.2 hc
        simp

/-! ### A placed code (43_huffman.md R249, R251) -/

/-- Settles O25: placing made the code lead to the symbol's leaf, below an internal root. -/
theorem placedCodeDecodes : Obligations.PlacedCodeDecodes := by
  intro t t' symbol code len inp r rest hlen hplace hready hbits
  obtain ⟨len, rfl⟩ := Nat.exists_eq_add_of_le' hlen
  obtain ⟨zero, one, rfl⟩ := Trie.place_root hplace
  rw [decodeSymbol_node]
  exact decodeFrom_delivers (Trie.walk_place hplace) r rest hready hbits

/-! ### Collisions (43_huffman.md R242) -/

/-- The walk meets a leaf before the code's end, or a node at it (43_huffman.md R242). -/
def Trie.Collides (t : Trie) (code : List Bool) : Prop :=
  (∃ p q, p <+: code ∧ p ≠ code ∧ t.walk p = .leaf q) ∨ t.walk code ≠ .absent

theorem Trie.collides_nil {t : Trie} : t.Collides [] ↔ t ≠ .absent := by
  simp [Trie.Collides]

theorem Trie.collides_leaf (q : Nat) (code : List Bool) : (Trie.leaf q).Collides code := by
  cases code with
  | nil => exact .inr nofun
  | cons b code => exact .inl ⟨[], q, ⟨b :: code, rfl⟩, nofun, rfl⟩

theorem Trie.collides_cons {t : Trie} (h : ∀ q, t ≠ .leaf q) {b : Bool} {code : List Bool} :
    t.Collides (b :: code) ↔ (t.child b).Collides code := by
  refine or_congr_left ⟨?_, ?_⟩
  · rintro ⟨p, q, ⟨rest, hrest⟩, hne, hleaf⟩
    cases p with
    | nil => exact absurd hleaf (h q)
    | cons c p =>
      obtain ⟨rfl, htail⟩ := List.cons.inj hrest
      exact ⟨p, q, ⟨rest, htail⟩, fun hpc => hne (by rw [hpc]), hleaf⟩
  · rintro ⟨p, q, ⟨rest, rfl⟩, hne, hleaf⟩
    exact ⟨b :: p, q, ⟨rest, rfl⟩, by simpa using hne, hleaf⟩

theorem Trie.place_eq_none_iff_collides {symbol : Nat} {code : List Bool} {t : Trie} :
    t.place symbol code = none ↔ t.Collides code := by
  induction code generalizing t with
  | nil => rw [Trie.place_nil_eq_none, Trie.collides_nil]
  | cons b code ih =>
    by_cases hleaf : ∃ q, t = .leaf q
    · obtain ⟨q, rfl⟩ := hleaf
      simp [Trie.collides_leaf]
    · rw [not_exists] at hleaf
      rw [Trie.place_cons hleaf, Option.map_eq_none_iff, ih, Trie.collides_cons hleaf]

/-- Settles O26: bit by bit, a placement goes on in the child exactly where a collision would be in the child. -/
theorem placeFailsExactlyOnCollision : Obligations.PlaceFailsExactlyOnCollision :=
  fun _ _ _ => ⟨Trie.place_eq_none_iff_collides,
    fun _ p q hplace hleaf => (Trie.walk_eq_leaf_of_place hplace p q).2 (.inl hleaf)⟩

/-! ### Lengths that are all zero (43_huffman.md R244) -/

theorem lengthRange_of_all_zero {lens : List Nat} (h : ∀ l ∈ lens, l = 0) : lengthRange lens = [] := by
  have hnone : lens.filter (0 < ·) = [] := by simpa using h
  simp [lengthRange, hnone]

/-- Settles O29: no length has a pass, and any bit leads out of a root without children. -/
theorem emptyTreeDecodesToSentinel : Obligations.EmptyTreeDecodesToSentinel := by
  constructor
  · intro lens skip hzero
    rw [build, lengthRange_of_all_zero hzero, placeLengths]
  · intro inp r b rest hready hbits
    have hout : Trie.empty.leadsOut [b] = true := by cases b <;> rfl
    obtain ⟨r', hdecode, hrest, -⟩ := decodeFrom_leadsOut hready hout hbits
    exact ⟨r', (decodeSymbol_node inp _ _ r).trans hdecode, hrest⟩

/-! ### Codes of a length, most significant bit first (43_huffman.md R251) -/

/-- Only the low `len` bits of a code count. -/
theorem codeBits_congr {a b len : Nat} (h : a % 2 ^ len = b % 2 ^ len) : codeBits a len = codeBits b len := by
  induction len with
  | zero => rfl
  | succ len ih =>
    have hbit : a.testBit len = b.testBit len := by
      simpa [Nat.testBit_mod_two_pow] using congrArg (·.testBit len) h
    have hlow : a % 2 ^ len = b % 2 ^ len := Nat.ModEq.of_dvd (Nat.pow_dvd_pow 2 (Nat.le_succ len)) h
    rw [codeBits_succ, codeBits_succ, hbit, ih hlow]

theorem codeBits_of_lt {code len : Nat} (h : code < 2 ^ len) :
    codeBits code (len + 1) = false :: codeBits code len := by
  rw [codeBits_succ, Nat.testBit_lt_two_pow h]

theorem codeBits_two_pow_add {code len : Nat} (h : code < 2 ^ len) :
    codeBits (2 ^ len + code) (len + 1) = true :: codeBits code len := by
  rw [codeBits_succ, Nat.testBit_two_pow_add_eq, Nat.testBit_lt_two_pow h, codeBits_congr (Nat.add_mod_left ..)]
  rfl

theorem codeBits_ne_nil {code len : Nat} (h : len ≠ 0) : codeBits code len ≠ [] :=
  List.ne_nil_of_length_pos (by rw [codeBits_length]; exact Nat.pos_of_ne_zero h)

/-! ### A tree filled from the left (43_huffman.md R242, R243) -/

/-- Below the node, the `n`-bit codes under `c` are taken and the others are free. -/
inductive Trie.FilledTo : Nat → Nat → Trie → Prop where
  | absent (n : Nat) : Trie.FilledTo n 0 .absent
  | leaf (n symbol : Nat) : Trie.FilledTo n (2 ^ n) (.leaf symbol)
  /-- The codes that start with 1 are all free. -/
  | left {n c : Nat} {zero : Trie} (hzero : zero.FilledTo n c) : Trie.FilledTo (n + 1) c (.node zero .absent)
  /-- The codes that start with 0 are all taken. -/
  | right {n c : Nat} {zero one : Trie} (hzero : zero.FilledTo n (2 ^ n)) (hone : one.FilledTo n c) :
    Trie.FilledTo (n + 1) (2 ^ n + c) (.node zero one)

theorem Trie.filledTo_empty {n : Nat} (h : 0 < n) : Trie.empty.FilledTo n 0 := by
  obtain ⟨n, rfl⟩ := Nat.exists_eq_add_of_le' h
  exact .left (.absent n)

theorem Trie.FilledTo.le {n c : Nat} {t : Trie} (h : t.FilledTo n c) : c ≤ 2 ^ n := by
  induction h with
  | absent n => exact Nat.zero_le _
  | leaf n symbol => exact le_rfl
  | left hzero ih => rw [pow_succ]; omega
  | right hzero hone ihzero ihone => rw [pow_succ]; omega

/-- Read over codes that are one bit longer, each taken code stands for two: the running code is shifted (43_huffman.md
R243). -/
theorem Trie.FilledTo.double {n c : Nat} {t : Trie} (h : t.FilledTo n c) : t.FilledTo (n + 1) (2 * c) := by
  induction h with
  | absent n => exact .absent (n + 1)
  | leaf n symbol => exact Nat.pow_succ' ▸ .leaf (n + 1) symbol
  | left hzero ih => exact .left ih
  | right hzero hone ihzero ihone =>
    rw [← Nat.pow_succ'] at ihzero
    rw [Nat.mul_add, ← Nat.pow_succ']
    exact .right ihzero ihone

/-- A full tree takes no code. -/
theorem Trie.FilledTo.place_of_full {n c : Nat} {t : Trie} (h : t.FilledTo n c) (hfull : c = 2 ^ n) (symbol : Nat)
    {code : List Bool} (hlen : code.length = n) : t.place symbol code = none := by
  induction h generalizing code with
  | absent n => exact absurd hfull (Nat.two_pow_pos n).ne
  | leaf n q => exact Trie.place_leaf symbol q code
  | @left n c zero hzero ih =>
    have hle : c ≤ 2 ^ n := hzero.le
    have hpos : 0 < 2 ^ n := Nat.two_pow_pos n
    rw [pow_succ] at hfull
    omega
  | @right n c zero one hzero hone ihzero ihone =>
    obtain ⟨b, code, rfl⟩ := List.exists_cons_of_length_eq_add_one hlen
    have htail : code.length = n := by simpa using hlen
    have hc : c = 2 ^ n := by rw [pow_succ] at hfull; omega
    rw [Trie.place_node_cons, Option.map_eq_none_iff]
    cases b
    · exact ihzero rfl htail
    · exact ihone hc htail

/-- Where nothing stands, code 0 starts the filling. -/
theorem Trie.place_absent_filledTo (symbol n : Nat) :
    ∃ t, Trie.absent.place symbol (codeBits 0 n) = some t ∧ t.FilledTo n 1 := by
  induction n with
  | zero => exact ⟨.leaf symbol, rfl, .leaf 0 symbol⟩
  | succ n ih =>
    obtain ⟨t, ht, hfilled⟩ := ih
    refine ⟨.node t .absent, ?_, .left hfilled⟩
    rw [codeBits_of_lt (Nat.two_pow_pos n), Trie.place_absent_cons, ht]
    rfl

/-- In a tree that is not full, the next code finds its place. -/
theorem Trie.FilledTo.place_next {n c : Nat} {t : Trie} (h : t.FilledTo n c) (hlt : c < 2 ^ n) (symbol : Nat) :
    ∃ t', t.place symbol (codeBits c n) = some t' ∧ t'.FilledTo n (c + 1) := by
  induction h with
  | absent n => exact Trie.place_absent_filledTo symbol n
  | leaf n q => exact absurd hlt (lt_irrefl _)
  | @left n c zero hzero ih =>
    rcases hzero.le.lt_or_eq with hc | rfl
    · obtain ⟨u, hu, hfilled⟩ := ih hc
      refine ⟨.node u .absent, ?_, .left hfilled⟩
      rw [codeBits_of_lt hc, Trie.place_node_cons, Trie.child_zero, hu]
      rfl
    · obtain ⟨u, hu, hfilled⟩ := Trie.place_absent_filledTo symbol n
      refine ⟨.node zero u, ?_, .right hzero hfilled⟩
      have hbits := codeBits_two_pow_add (Nat.two_pow_pos n)
      rw [Nat.add_zero] at hbits
      rw [hbits, Trie.place_node_cons, Trie.child_one, hu]
      rfl
  | @right n c zero one hzero hone ihzero ihone =>
    have hc : c < 2 ^ n := by rw [pow_succ] at hlt; omega
    obtain ⟨u, hu, hfilled⟩ := ihone hc
    refine ⟨.node zero u, ?_, .right hzero hfilled⟩
    rw [codeBits_two_pow_add hc, Trie.place_node_cons, Trie.child_one, hu]
    rfl

/-! ### One length's pass (43_huffman.md R243, the inner loop) -/

theorem placeLength_cons_same (len symbol code : Nat) (rest : List (Nat × Nat)) (t : Trie) :
    placeLength [] len ((len, symbol) :: rest) (code, t) =
      (t.place symbol (codeBits code len)).bind fun t' => placeLength [] len rest (code + 1, t') := by
  rw [placeLength, if_pos rfl, if_neg (by simp)]
  cases t.place symbol (codeBits code len) <;> rfl

theorem placeLength_cons_other {l len : Nat} (h : l ≠ len) (symbol : Nat) (rest : List (Nat × Nat))
    (acc : Nat × Trie) : placeLength [] len ((l, symbol) :: rest) acc = placeLength [] len rest acc := by
  rw [placeLength, if_neg h]

/-- A pass over few enough symbols finds a place for each of them. -/
theorem placeLength_of_le {len c : Nat} {t : Trie} (ht : t.FilledTo len c) {lens : List Nat} (n : Nat)
    (h : c + lens.count len ≤ 2 ^ len) :
    ∃ t', placeLength [] len (lens.zipIdx n) (c, t) = some (c + lens.count len, t') ∧
      t'.FilledTo len (c + lens.count len) := by
  induction lens generalizing n c t with
  | nil => exact ⟨t, rfl, ht⟩
  | cons l lens ih =>
    rw [List.zipIdx_cons]
    by_cases hl : l = len
    · subst hl
      rw [List.count_cons_self, Nat.add_comm (List.count _ _), ← Nat.add_assoc] at h ⊢
      obtain ⟨u, hu, hfilled⟩ := ht.place_next (by omega) n
      rw [placeLength_cons_same, hu]
      exact ih hfilled (n + 1) h
    · rw [List.count_cons_of_ne hl] at h ⊢
      rw [placeLength_cons_other hl]
      exact ih ht (n + 1) h

/-- A pass over too many symbols fails: the first code past the last one finds the tree full. -/
theorem placeLength_of_gt {len c : Nat} {t : Trie} (ht : t.FilledTo len c) {lens : List Nat} (n : Nat)
    (h : 2 ^ len < c + lens.count len) : placeLength [] len (lens.zipIdx n) (c, t) = none := by
  induction lens generalizing n c t with
  | nil => exact absurd ht.le (Nat.not_le_of_lt h)
  | cons l lens ih =>
    rw [List.zipIdx_cons]
    by_cases hl : l = len
    · subst hl
      rw [placeLength_cons_same]
      rcases ht.le.lt_or_eq with hc | hfull
      · obtain ⟨u, hu, hfilled⟩ := ht.place_next hc n
        rw [hu]
        exact ih hfilled (n + 1) (by rw [List.count_cons_self] at h; omega)
      · rw [ht.place_of_full hfull n (codeBits_length c l)]
        rfl
    · rw [placeLength_cons_other hl]
      exact ih ht (n + 1) (by rwa [List.count_cons_of_ne hl] at h)

/-- A pass counts the running code up once for each symbol of its length. -/
theorem placeLength_code {len c c' : Nat} {t t' : Trie} {lens : List Nat} {n : Nat}
    (h : placeLength [] len (lens.zipIdx n) (c, t) = some (c', t')) : c' = c + lens.count len := by
  induction lens generalizing n c t with
  | nil => cases h; rfl
  | cons l lens ih =>
    rw [List.zipIdx_cons] at h
    by_cases hl : l = len
    · subst hl
      rw [placeLength_cons_same, Option.bind_eq_some_iff] at h
      obtain ⟨u, -, hrest⟩ := h
      rw [ih hrest, List.count_cons_self]
      omega
    · rw [placeLength_cons_other hl] at h
      rw [ih h, List.count_cons_of_ne hl]

/-- A pass that numbers its symbols from `n` and starts at the code `c` gives the symbol `q` the code bits `p`. -/
def PassGives (len c n : Nat) (lens : List Nat) (p : List Bool) (q : Nat) : Prop :=
  ∃ i, lens[i]? = some len ∧ q = n + i ∧ p = codeBits (c + (lens.take i).count len) len

theorem passGives_nil {len c n : Nat} {p : List Bool} {q : Nat} : ¬PassGives len c n [] p q := by
  simp [PassGives]

theorem passGives_cons_same {len c n : Nat} {lens : List Nat} {p : List Bool} {q : Nat} :
    PassGives len c n (len :: lens) p q ↔
      (p = codeBits c len ∧ q = n) ∨ PassGives len (c + 1) (n + 1) lens p q := by
  unfold PassGives
  refine Nat.or_exists_add_one.symm.trans (or_congr ?_ (exists_congr fun i => ?_))
  · simp [and_comm]
  · simp [Nat.add_assoc, Nat.add_comm 1]

theorem passGives_cons_other {l len c n : Nat} (h : l ≠ len) {lens : List Nat} {p : List Bool} {q : Nat} :
    PassGives len c n (l :: lens) p q ↔ PassGives len c (n + 1) lens p q := by
  unfold PassGives
  refine Nat.or_exists_add_one.symm.trans ((or_iff_right ?_).trans (exists_congr fun i => ?_))
  · simp [h]
  · simp [h, Nat.add_assoc, Nat.add_comm 1]

/-- The leaves after a pass are those before it and those it gives. -/
theorem placeLength_walk_eq_leaf {len c c' : Nat} {t t' : Trie} {lens : List Nat} {n : Nat}
    (h : placeLength [] len (lens.zipIdx n) (c, t) = some (c', t')) (p : List Bool) (q : Nat) :
    t'.walk p = .leaf q ↔ t.walk p = .leaf q ∨ PassGives len c n lens p q := by
  induction lens generalizing n c t with
  | nil => cases h; exact (or_iff_left passGives_nil).symm
  | cons l lens ih =>
    rw [List.zipIdx_cons] at h
    by_cases hl : l = len
    · subst hl
      rw [placeLength_cons_same, Option.bind_eq_some_iff] at h
      obtain ⟨u, hu, hrest⟩ := h
      rw [ih hrest, Trie.walk_eq_leaf_of_place hu, or_assoc, passGives_cons_same]
    · rw [placeLength_cons_other hl] at h
      rw [ih h, passGives_cons_other hl]

/-! ### The start code of each length (43_huffman.md R254) -/

/-- next_code: the `len`-bit codes that the shorter lengths take up. -/
def firstCode (lens : List Nat) (len : Nat) : Nat :=
  ((lens.filter fun m => 0 < m ∧ m < len).map fun m => 2 ^ (len - m)).sum

theorem canonicalCode_eq_firstCode_add_count (lens : List Nat) (symbol len : Nat) :
    canonicalCode lens symbol len = firstCode lens len + (lens.take symbol).count len := by
  rw [List.count_eq_length_filter]
  rfl

theorem firstCode_cons (l : Nat) (lens : List Nat) (len : Nat) :
    firstCode (l :: lens) len = (if 0 < l ∧ l < len then 2 ^ (len - l) else 0) + firstCode lens len := by
  simp only [firstCode, List.filter_cons, decide_eq_true_eq]
  split_ifs
  · rw [List.map_cons, List.sum_cons]
  · rw [Nat.zero_add]

/-- The running code after a length's pass and the shift is the next length's start code. -/
theorem firstCode_succ (lens : List Nat) {len : Nat} (h : 0 < len) :
    firstCode lens (len + 1) = 2 * (firstCode lens len + lens.count len) := by
  induction lens with
  | nil => rfl
  | cons l lens ih =>
    rw [firstCode_cons, firstCode_cons, ih]
    rcases lt_trichotomy l len with hlt | rfl | hgt
    · rw [List.count_cons_of_ne hlt.ne, Nat.succ_sub hlt.le, pow_succ]
      split_ifs <;> omega
    · rw [List.count_cons_self, Nat.add_sub_cancel_left]
      split_ifs <;> omega
    · rw [List.count_cons_of_ne hgt.ne']
      split_ifs <;> omega

theorem firstCode_of_le {lens : List Nat} {len : Nat} (h : ∀ l ∈ lens, 0 < l → len ≤ l) :
    firstCode lens len = 0 := by
  induction lens with
  | nil => rfl
  | cons l lens ih =>
    obtain ⟨hl, hlens⟩ := List.forall_mem_cons.1 h
    rw [firstCode_cons, ih hlens, if_neg fun hcon => (hl hcon.1).not_gt hcon.2]

/-- Too many codes of a length leave too many at every greater one. -/
theorem firstCode_gt_add {lens : List Nat} {len : Nat} (h0 : 0 < len) (h : 2 ^ len < firstCode lens len) (k : Nat) :
    2 ^ (len + k) < firstCode lens (len + k) := by
  induction k with
  | zero => exact h
  | succ k ih =>
    rw [← Nat.add_assoc, firstCode_succ lens (Nat.add_pos_left h0 k), pow_succ]
    omega

theorem kraftSum_cons (l : Nat) (lens : List Nat) :
    kraftSum (l :: lens) = (if 0 < l then 2 ^ (15 - l) else 0) + kraftSum lens := by
  simp only [kraftSum, List.filter_cons, decide_eq_true_eq]
  split_ifs
  · rw [List.map_cons, List.sum_cons, Config.maxCodeLength]
  · rw [Nat.zero_add]

/-- Past every length, the start code is the Kraft sum at the scale of its length. -/
theorem firstCode_mul_two_pow {lens : List Nat} {len : Nat} (h : ∀ l ∈ lens, l < len ∧ l ≤ 15) :
    firstCode lens len * 2 ^ 15 = 2 ^ len * kraftSum lens := by
  induction lens with
  | nil => simp [firstCode, kraftSum]
  | cons l lens ih =>
    obtain ⟨⟨hlen, h15⟩, hlens⟩ := List.forall_mem_cons.1 h
    have hl : 2 ^ (len - l) * 2 ^ 15 = 2 ^ len * 2 ^ (15 - l) := by
      rw [← pow_add, ← pow_add]
      congr 1
      omega
    rw [firstCode_cons, kraftSum_cons, Nat.add_mul, Nat.mul_add, ih hlens]
    by_cases h0 : 0 < l
    · rw [if_pos ⟨h0, hlen⟩, if_pos h0, hl]
    · rw [if_neg fun hcon => h0 hcon.1, if_neg h0, Nat.zero_mul, Nat.mul_zero]

/-! ### All passes (43_huffman.md R243, the outer loop) -/

theorem placeLengths_cons (lens : List (Nat × Nat)) (len : Nat) (rest : List Nat) (acc : Nat × Trie) :
    placeLengths [] lens (len :: rest) acc =
      (placeLength [] len lens acc).bind fun a => placeLengths [] lens rest (a.1 <<< 1, a.2) := by
  rw [placeLengths]
  rcases placeLength [] len lens acc with _ | ⟨code, t⟩ <;> rfl

/-- A pass that starts at its length's start code hands on the next one's. -/
theorem placeLength_code_shift {lens : List Nat} {len : Nat} (h0 : 0 < len) {a : Nat × Trie} {t : Trie}
    (h : placeLength [] len lens.zipIdx (firstCode lens len, t) = some a) : a.1 <<< 1 = firstCode lens (len + 1) := by
  rw [placeLength_code h, Nat.shiftLeft_eq, firstCode_succ lens h0, pow_one, Nat.mul_comm]

/-- The passes fail exactly when the code of some length overflows, and it then does at the end. -/
theorem placeLengths_eq_none_iff {lens : List Nat} {len : Nat} (h0 : 0 < len) {t : Trie}
    (ht : t.FilledTo len (firstCode lens len)) (k : Nat) :
    placeLengths [] lens.zipIdx (List.range' len k) (firstCode lens len, t) = none ↔
      2 ^ (len + k) < firstCode lens (len + k) := by
  induction k generalizing len t with
  | zero => simpa [placeLengths] using ht.le
  | succ k ih =>
    have hnext := firstCode_succ lens h0
    rw [List.range'_succ, placeLengths_cons, ← Nat.add_assoc, Nat.add_right_comm]
    rcases le_or_gt (firstCode lens len + lens.count len) (2 ^ len) with hle | hgt
    · obtain ⟨u, hu, hfilled⟩ := placeLength_of_le ht 0 hle
      rw [hu, Option.bind_some, placeLength_code_shift h0 hu]
      exact ih (Nat.succ_pos len) (hnext ▸ hfilled.double)
    · rw [placeLength_of_gt ht 0 hgt]
      have hover : 2 ^ (len + 1) < firstCode lens (len + 1) := by rw [hnext, pow_succ]; omega
      simpa using firstCode_gt_add (Nat.succ_pos len) hover k

/-- From the start code of its length, a pass gives each symbol of the length its canonical code. -/
theorem passGives_firstCode {lens : List Nat} {len : Nat} {p : List Bool} {q : Nat} :
    PassGives len (firstCode lens len) 0 lens p q ↔
      lens[q]? = some len ∧ p = codeBits (canonicalCode lens q len) len := by
  simp only [PassGives, Nat.zero_add, canonicalCode_eq_firstCode_add_count]
  constructor
  · rintro ⟨i, hi, rfl, hp⟩
    exact ⟨hi, hp⟩
  · rintro ⟨hq, hp⟩
    exact ⟨q, hq, rfl, hp⟩

/-- The leaves after the passes over a range of lengths are those before them and, for each symbol whose length is in
the range, its canonical code. -/
theorem placeLengths_walk_eq_leaf {lens : List Nat} {len k : Nat} (h0 : 0 < len) {t t' : Trie}
    (h : placeLengths [] lens.zipIdx (List.range' len k) (firstCode lens len, t) = some t') (p : List Bool) (q : Nat) :
    t'.walk p = .leaf q ↔ t.walk p = .leaf q ∨
      ∃ l ∈ List.range' len k, lens[q]? = some l ∧ p = codeBits (canonicalCode lens q l) l := by
  induction k generalizing len t with
  | zero => cases h; simp
  | succ k ih =>
    rw [List.range'_succ, placeLengths_cons, Option.bind_eq_some_iff] at h
    obtain ⟨a, ha, hrest⟩ := h
    rw [placeLength_code_shift h0 ha] at hrest
    rw [ih (Nat.succ_pos len) hrest, placeLength_walk_eq_leaf ha, passGives_firstCode, or_assoc, List.range'_succ,
      List.exists_mem_cons_iff]

/-! ### build (43_huffman.md R243) -/

/-- The lengths that are passed over hold every length but 0. -/
theorem exists_lengthRange_eq (lens : List Nat) :
    ∃ mn k, 0 < mn ∧ lengthRange lens = List.range' mn k ∧ ∀ l ∈ lens, 0 < l → l ∈ List.range' mn k := by
  cases hmin : (lens.filter (0 < ·)).min? with
  | none =>
    have hzero : ∀ l ∈ lens, ¬0 < l := by simpa using hmin
    exact ⟨1, 0, Nat.one_pos, by simp [lengthRange, hmin], fun l hl hpos => absurd hpos (hzero l hl)⟩
  | some mn =>
    obtain ⟨hmem, hle⟩ := List.min?_eq_some_iff.1 hmin
    refine ⟨mn, lens.foldl max 0 + 1 - mn, by simpa using (List.mem_filter.1 hmem).2, by simp [lengthRange, hmin],
      fun l hl hpos => ?_⟩
    have hmn : mn ≤ l := hle l (List.mem_filter.2 ⟨hl, by simpa using hpos⟩)
    have hmx : l ≤ lens.foldl max 0 := (List.max?_eq_some_iff.1 List.max?_cons').2 l (List.mem_cons_of_mem 0 hl)
    rw [List.mem_range'_1]
    omega

/-- Every build is passes over a range that holds every length but 0, from the start code of the first. -/
theorem exists_build_eq (lens : List Nat) :
    ∃ mn k, 0 < mn ∧ (∀ l ∈ lens, 0 < l → l ∈ List.range' mn k) ∧ firstCode lens mn = 0 ∧
      build lens [] = placeLengths [] lens.zipIdx (List.range' mn k) (firstCode lens mn, .empty) := by
  obtain ⟨mn, k, h0, hrange, hmem⟩ := exists_lengthRange_eq lens
  have hfirst : firstCode lens mn = 0 := firstCode_of_le fun l hl hpos => (List.mem_range'_1.1 (hmem l hl hpos)).1
  exact ⟨mn, k, h0, hmem, hfirst, by rw [build, hrange, hfirst]⟩

/-- Settles O28: the last start code overflows exactly when the Kraft sum does. -/
theorem buildFailsExactlyWhenOversubscribed : Obligations.BuildFailsExactlyWhenOversubscribed := by
  intro lens h15
  obtain ⟨mn, k, h0, hmem, hfirst, hbuild⟩ := exists_build_eq lens
  have hlt : ∀ l ∈ lens, l < mn + k ∧ l ≤ 15 := by
    refine fun l hl => ⟨?_, h15 l hl⟩
    rcases Nat.eq_zero_or_pos l with rfl | hpos
    · exact Nat.add_pos_left h0 k
    · exact (List.mem_range'_1.1 (hmem l hl hpos)).2
  have hstart : Trie.empty.FilledTo mn (firstCode lens mn) := hfirst ▸ Trie.filledTo_empty h0
  calc build lens [] = none
      ↔ 2 ^ (mn + k) < firstCode lens (mn + k) := by rw [hbuild, placeLengths_eq_none_iff h0 hstart]
    _ ↔ 2 ^ (mn + k) * 2 ^ 15 < 2 ^ (mn + k) * kraftSum lens := by
        rw [← firstCode_mul_two_pow hlt, Nat.mul_lt_mul_right (Nat.two_pow_pos 15)]
    _ ↔ 2 ^ 15 < kraftSum lens := Nat.mul_lt_mul_left (Nat.two_pow_pos (mn + k))

theorem Trie.walk_empty_ne_leaf (p : List Bool) (q : Nat) : Trie.empty.walk p ≠ .leaf q := by
  rcases p with _ | ⟨_ | _, p⟩ <;> simp [Trie.empty]

/-- The leaves of a tree that builds are the canonical codes of the lengths that are not 0. -/
theorem build_walk_eq_leaf {lens : List Nat} {t : Trie} (h : build lens [] = some t) (p : List Bool) (q : Nat) :
    t.walk p = .leaf q ↔ ∃ l, l ≠ 0 ∧ lens[q]? = some l ∧ p = codeBits (canonicalCode lens q l) l := by
  obtain ⟨mn, k, h0, hmem, -, hbuild⟩ := exists_build_eq lens
  rw [placeLengths_walk_eq_leaf h0 (hbuild ▸ h), or_iff_right (Trie.walk_empty_ne_leaf p q)]
  refine exists_congr fun l => and_congr_left fun hcode => ⟨fun hl => ?_, fun hl => ?_⟩
  · exact (h0.trans_le (List.mem_range'_1.1 hl).1).ne'
  · exact hmem l (List.mem_of_getElem? hcode.1) (Nat.pos_of_ne_zero hl)

theorem Trie.walk_ne_leaf_of_codeBelow_eq_none {symbol : Nat} {t : Trie} (h : t.codeBelow symbol = none)
    (p : List Bool) : t.walk p ≠ .leaf symbol := by
  induction t generalizing p with
  | absent => simp
  | leaf s =>
    have hs : s ≠ symbol := by simpa [Trie.codeBelow] using h
    cases p <;> simp [hs]
  | node zero one ihzero ihone =>
    obtain ⟨hzero, hone⟩ : zero.codeBelow symbol = none ∧ one.codeBelow symbol = none := by
      rw [Trie.codeBelow] at h
      split at h
      · cases h
      · next hzero => exact ⟨hzero, Option.map_eq_none_iff.1 h⟩
    rcases p with _ | ⟨_ | _, p⟩
    · exact nofun
    · exact ihzero hzero p
    · exact ihone hone p

/-- A code leads to its symbol's leaf. -/
theorem Trie.walk_codeOf {symbol : Nat} {code : List Bool} {t : Trie} (h : t.codeOf symbol = some code) :
    t.walk code = .leaf symbol := by
  cases t with
  | absent | leaf s => cases h
  | node zero one => exact Trie.walk_codeBelow h

theorem Trie.codeOf_eq_none {symbol : Nat} {t : Trie} (h : ∀ p, t.walk p ≠ .leaf symbol) : t.codeOf symbol = none :=
  Option.eq_none_iff_forall_ne_some.2 fun p hp => h p (Trie.walk_codeOf hp)

/-- A symbol with one leaf has the code that leads to it. -/
theorem Trie.codeOf_eq_some {symbol : Nat} {code : List Bool} {t : Trie} (hne : code ≠ [])
    (h : ∀ p, t.walk p = .leaf symbol ↔ p = code) : t.codeOf symbol = some code := by
  have hleaf := (h code).2 rfl
  cases hcode : t.codeOf symbol with
  | some c => rw [(h c).1 (Trie.walk_codeOf hcode)]
  | none =>
    obtain ⟨b, code, rfl⟩ := List.exists_cons_of_ne_nil hne
    cases t with
    | absent | leaf s => simp at hleaf
    | node zero one => exact absurd hleaf (Trie.walk_ne_leaf_of_codeBelow_eq_none hcode _)

/-- Settles O27: the symbol's one leaf stands at its canonical code. -/
theorem buildGivesCanonicalCodes : Obligations.BuildGivesCanonicalCodes := by
  intro lens t hbuild symbol l hl
  have hleaf : ∀ p, t.walk p = .leaf symbol ↔ l ≠ 0 ∧ p = codeBits (canonicalCode lens symbol l) l := by
    intro p
    rw [build_walk_eq_leaf hbuild, hl]
    constructor
    · rintro ⟨m, h0, hm, hp⟩
      cases hm
      exact ⟨h0, hp⟩
    · rintro ⟨h0, hp⟩
      exact ⟨l, h0, rfl, hp⟩
  split_ifs with h0
  · exact Trie.codeOf_eq_none fun p hp => ((hleaf p).1 hp).1 h0
  · exact Trie.codeOf_eq_some (codeBits_ne_nil h0) fun p => (hleaf p).trans (and_iff_right h0)

end Sys2Proof.Machine

namespace Sys2Proof.Machine

/-! ### A distance beyond the bytes held (44_window.md R274, 47_symbols.md R376) -/

theorem failStructural_failedWith (cause : FailCause) (s : State) :
    FailedWith .structuralViolation cause s (failStructural cause s) := ⟨rfl, rfl, rfl, rfl, rfl⟩

/-- A distance code 0 to 29 is the copy at its own code and extra value (47_symbols.md R374, R376). -/
theorem exec_eq_copyMatch {i : Instr} (hd : i.format = .d) (hcode : i.symbol ≤ 29) (s : State) :
    exec i s = copyMatch i.symbol i.extraValue s := by
  cases i <;> cases hd
  case distInvalid30 | distInvalid31 => exact absurd hcode (by decide)
  all_goals rfl

theorem dbase_pos : ∀ c ≤ 29, 0 < dbase c := by decide

theorem backDistance_add_one {code : Nat} (hcode : code ≤ 29) (e : Nat) : backDistance code e + 1 = dbase code + e := by
  have hpos := dbase_pos code hcode
  unfold backDistance
  omega

theorem copyMatch_of_no_pending {s : State} (hm : s.matchLen = none) (code e : Nat) :
    copyMatch code e s = .fault .noPendingLength := by
  rw [copyMatch, hm]

theorem copyMatch_of_held_le {s : State} {len code e : Nat} (hm : s.matchLen = some len)
    (hheld : s.sink.held.toNat ≤ backDistance code e) :
    copyMatch code e s = .next (failStructural .invalidBackReference s) := by
  rcases copyMatch_cases code e s with ⟨hnone, -⟩ | ⟨_, -, -, h⟩ | ⟨_, -, hlt, -⟩
  · cases hm.symm.trans hnone
  · exact h
  · exact absurd hheld (Nat.not_le_of_lt hlt)

/-- Settles O51: every distance code is one copy, which looks for a pending length first and for a held distance next. -/
theorem distanceTooFarBackFails : Obligations.DistanceTooFarBackFails := by
  intro i s hd hcode
  rw [exec_eq_copyMatch hd hcode]
  refine ⟨fun len hm hfar => ?_, fun hm => copyMatch_of_no_pending hm _ _⟩
  rw [← backDistance_add_one hcode] at hfar
  exact ⟨_, copyMatch_of_held_le hm (Nat.le_of_lt_succ hfar), failStructural_failedWith _ s⟩

/-! ### What one element emits (44_window.md R279, 20_memory.md R119) -/

/-- The bytes that a pending length still promises to copy (47_symbols.md R363, R373). -/
def State.owed (s : State) : Nat := s.matchLen.getD 0

/-- From `s` to `t` the output grew, and what was emitted and what is still owed exceed what was owed by at most `n`. -/
def EmitsWithin (n : Nat) (s t : State) : Prop :=
  ∃ bytes, t.sink.out = s.sink.out ++ bytes ∧ bytes.length + t.owed ≤ s.owed + n

theorem EmitsWithin.mono {m n : Nat} {s t : State} (h : EmitsWithin m s t) (hmn : m ≤ n) : EmitsWithin n s t := by
  obtain ⟨bytes, hout, hlen⟩ := h
  exact ⟨bytes, hout, by omega⟩

theorem EmitsWithin.trans {m n : Nat} {s u t : State} (hsu : EmitsWithin m s u) (hut : EmitsWithin n u t) :
    EmitsWithin (m + n) s t := by
  obtain ⟨bytes₁, hout₁, hlen₁⟩ := hsu
  obtain ⟨bytes₂, hout₂, hlen₂⟩ := hut
  refine ⟨bytes₁ ++ bytes₂, by rw [hout₂, hout₁, List.append_assoc], ?_⟩
  rw [List.length_append]
  omega

/-- A state that emits nothing and owes no other length is within any bound. -/
theorem nextHas_emitsWithin_of_out_eq {n : Nat} {s t : State} (hout : t.sink.out = s.sink.out)
    (hm : t.matchLen = s.matchLen ∨ t.matchLen = none) : NextHas (EmitsWithin n s) (.next t) := by
  refine nextHas_next.2 ⟨[], by rw [hout, List.append_nil], ?_⟩
  rcases hm with hm | hm <;> simp [State.owed, hm]

/-- A state that emits one byte and owes the same length. -/
theorem nextHas_emitsWithin_of_append {n : Nat} (hn : 1 ≤ n) {s t : State} (b : Byte)
    (hout : t.sink.out = s.sink.out ++ [b]) (hm : t.matchLen = s.matchLen) : NextHas (EmitsWithin n s) (.next t) := by
  refine nextHas_next.2 ⟨[b], hout, ?_⟩
  rw [List.length_singleton, State.owed, hm, ← State.owed]
  omega

/-- The copy emits exactly what was owed, or nothing when it fails. -/
theorem copyMatch_emitsWithin (code e : Nat) (s : State) : NextHas (EmitsWithin 0 s) (copyMatch code e s) := by
  rcases copyMatch_cases code e s with ⟨-, h⟩ | ⟨len, -, -, h⟩ | ⟨len, hm, -, h⟩ <;> rw [h]
  · exact nextHas_fault _ _
  · exact nextHas_emitsWithin_of_out_eq rfl (.inr rfl)
  · obtain ⟨bytes, hlen, hout⟩ := Sink.copy_out (backDistance code e) len s.sink
    exact nextHas_next.2 ⟨bytes, hout, by simp [State.owed, hm, hlen]⟩

/-- A length code whose table row ends at 258 or below owes at most 258 bytes (30_encoding.md R151). -/
theorem setMatchLength_emitsWithin {code n : Nat} (hrow : lbase code + 2 ^ n ≤ 259) (e : BitVec n) (s : State) :
    NextHas (EmitsWithin 258 s) (setMatchLength code e.toNat s) := by
  have hlt : e.toNat < 2 ^ n := e.isLt
  refine nextHas_next.2 ⟨[], (List.append_nil _).symm, ?_⟩
  simp only [State.owed, Option.getD_some, matchLength, List.length_nil]
  omega

theorem storeLengths_emitsWithin (n rep : Nat) (v : BitVec 4) (s : State) :
    NextHas (EmitsWithin n s) (storeLengths rep v s) := by
  rcases storeLengths_cases rep v s with ⟨-, h⟩ | ⟨-, h⟩ <;> rw [h]
  · exact nextHas_emitsWithin_of_out_eq rfl (.inr rfl)
  · exact nextHas_emitsWithin_of_out_eq rfl (.inl rfl)

theorem execStoredByte_emitsWithin (b : Byte) (s : State) : NextHas (EmitsWithin 1 s) (execStoredByte b s) := by
  unfold execStoredByte
  dsimp only
  split_ifs <;> exact nextHas_emitsWithin_of_append le_rfl b rfl rfl

/-- The most that an element of the format emits or leaves owed, beyond what was owed before it. -/
def emitBound : Format → Nat
  | .ll => 258
  | .sb => 1
  | _ => 0

theorem emitBound_le (f : Format) : emitBound f ≤ 258 := by cases f <;> decide

/-- A literal and a stored byte emit one byte, a length code owes its length, a distance pays it; nothing else emits. -/
theorem exec_emitsWithin (i : Instr) (s : State) : NextHas (EmitsWithin (emitBound i.format) s) (exec i s) := by
  cases i
  case blockStored | blockFixed | blockDynamic | eob => exact nextHas_emitsWithin_of_out_eq rfl (.inl rfl)
  case blockReserved | llInvalid286 | llInvalid287 | distInvalid30 | distInvalid31 =>
    exact nextHas_emitsWithin_of_out_eq rfl (.inr rfl)
  case storedHdr len nlen =>
    simp only [exec, execStoredHdr]
    split_ifs <;> exact nextHas_emitsWithin_of_out_eq rfl (by simp)
  case dynHdr hlit hdist hclen =>
    simp only [exec, execDynHdr]
    split_ifs <;> exact nextHas_emitsWithin_of_out_eq rfl (by simp)
  case clLength len =>
    simp only [exec, execClLength]
    split_ifs <;> exact nextHas_emitsWithin_of_out_eq rfl (.inl rfl)
  case clRepPrev extra =>
    simp only [exec, execClRepPrev]
    split_ifs
    · exact nextHas_emitsWithin_of_out_eq rfl (.inr rfl)
    · exact storeLengths_emitsWithin _ _ _ s
  case clLen | clRepZeroShort | clRepZeroLong => exact storeLengths_emitsWithin _ _ _ s
  case storedByte b => exact execStoredByte_emitsWithin b s
  case lit b => exact nextHas_emitsWithin_of_append (n := 258) (by decide) b rfl rfl
  case len257 | len258 | len259 | len260 | len261 | len262 | len263 | len264 | len285 =>
    exact setMatchLength_emitsWithin (by decide) 0#0 s
  case len265 e | len266 e | len267 e | len268 e | len269 e | len270 e | len271 e | len272 e | len273 e | len274 e |
      len275 e | len276 e | len277 e | len278 e | len279 e | len280 e | len281 e | len282 e | len283 e | len284 e =>
    exact setMatchLength_emitsWithin (by decide) e s
  all_goals exact copyMatch_emitsWithin _ _ s

/-! ### What one step emits -/

theorem runElement_emitsWithin (c : Context) (s : State) :
    NextHas (EmitsWithin (emitBound c.format) s) (runElement c s) := by
  rcases runElement_cases c s with ⟨i, r, hd, h⟩ | ⟨e, r, -, h⟩ | ⟨r, -, h⟩ <;> rw [h]
  · rw [← decodeElement_format hd]
    exact exec_emitsWithin i (s.withReader r)
  · exact nextHas_emitsWithin_of_out_eq rfl (.inr rfl)
  · exact nextHas_emitsWithin_of_out_eq rfl (.inr rfl)

/-- The distance of a pair emits what its length code left owed, and so adds nothing to the bound. -/
theorem finishPair_emitsWithin {n : Nat} {s : State} {o : Result} (h : NextHas (EmitsWithin n s) o) :
    NextHas (EmitsWithin n s) (finishPair o) := by
  cases o with
  | fault f => exact h
  | refused r => exact h
  | next u =>
    have hu : EmitsWithin n s u := h u rfl
    rw [finishPair]
    split
    · exact fun t ht => hu.trans (runElement_emitsWithin (.dist (distTree u)) u t ht)
    · exact h

theorem step_emitsWithin_of_build {s : State} (hp : s.phase = .dynClBuild ∨ s.phase = .dynBuild) :
    NextHas (EmitsWithin 0 s) (step s) := by
  rcases hp with hp | hp
  · rw [step_clBuild hp, stepClBuild]
    split <;> exact nextHas_emitsWithin_of_out_eq rfl (by simp)
  · rw [step_build hp, stepBuild]
    split
    · exact nextHas_emitsWithin_of_out_eq rfl (.inr rfl)
    · split <;> exact nextHas_emitsWithin_of_out_eq rfl (by simp)

theorem step_emitsWithin (s : State) : NextHas (EmitsWithin 258 s) (step s) := by
  intro t h
  by_cases hbuild : s.phase = .dynClBuild ∨ s.phase = .dynBuild
  · exact (step_emitsWithin_of_build hbuild t h).mono (Nat.zero_le _)
  · obtain ⟨hcl, hb⟩ := not_or.1 hbuild
    obtain ⟨c, hc⟩ := elementContext_of_step hcl hb h
    refine EmitsWithin.mono ?_ (emitBound_le c.format)
    rcases step_of_elementContext hc with hstep | hstep
    · exact runElement_emitsWithin c s t (hstep ▸ h)
    · exact finishPair_emitsWithin (runElement_emitsWithin c s) t (hstep ▸ h)

/-- Settles O19: what a step emits and what it leaves owed are together at most 258 bytes, as nothing was owed before. -/
theorem outputOnlyGrows : Obligations.OutputOnlyGrows := by
  intro s t hm h
  obtain ⟨bytes, hout, hlen⟩ := step_emitsWithin s t h
  have hzero : s.owed = 0 := by rw [State.owed, hm, Option.getD_none]
  exact ⟨bytes, hout, by omega⟩

end Sys2Proof.Machine

namespace Sys2Proof.Machine

/-! ### What the meanings of the block headers and the stored elements answer (45_block_fsm.md R302 to R309) -/

/-- Settles O34: each header is two field writes and the choice of the next phase. -/
theorem blockHeadersSelectThePhase : Obligations.BlockHeadersSelectThePhase := by
  refine fun final s => ⟨rfl, rfl, rfl, fun t h => ?_⟩
  cases h
  exact ⟨rfl, rfl⟩

/-- The failure entry after register writes that touched neither OUT nor IN. -/
theorem failStructural_failedWith_of_kept (cause : FailCause) {s u : State} (hout : u.sink.out = s.sink.out)
    (hinput : u.input = s.input) : FailedWith .structuralViolation cause s (failStructural cause u) :=
  ⟨rfl, rfl, rfl, hout, hinput⟩

/-- Settles O35: the failure entry follows the writes of BFINAL and BTYPE. -/
theorem reservedBlockTypeFails : Obligations.ReservedBlockTypeFails :=
  fun _ _ => ⟨_, rfl, failStructural_failedWith_of_kept _ rfl rfl⟩

/-- Settles O36: the check of NLEN comes first, then the split at LEN = 0. -/
theorem storedHeaderEffects : Obligations.StoredHeaderEffects := by
  refine fun len nlen s => ⟨?copy, ?empty, ?mismatch⟩
  case copy =>
    intro hnlen hlen
    rw [exec, execStoredHdr, if_neg (not_not.2 hnlen), if_neg hlen]
    rfl
  case empty =>
    intro hnlen hlen
    rw [exec, execStoredHdr, if_neg (not_not.2 hnlen), if_pos hlen]
    rfl
  case mismatch =>
    intro hnlen
    rw [exec, execStoredHdr, if_pos hnlen]
    exact ⟨_, rfl, failStructural_failedWith_of_kept _ rfl rfl⟩

/-- 44_window.md R271: appendByte, register by register. -/
theorem Sink.append_appended {k : Sink} (hram : Memory.wf k.ram) (hheld : k.held.toNat ≤ Config.windowSize)
    (b : Byte) : k.Appended b (k.append b) where
  written := Memory.read_write_same hram.1 _ b
  others := fun _ ha => Memory.read_write_other k.ram b ha
  wp_eq := BitVec.toNat_add ..
  held_eq := by
    have hsize : Config.windowSize = 32768 := rfl
    rw [Sink.append_held]
    split
    · bv_omega
    · omega
  total_eq := BitVec.toNat_add ..
  crc_eq := crcTableMatchesBitwiseForm k.crc b
  out_eq := rfl

/-- The stored byte is appended, ST_REM counts down, and the byte that brings it to 0 ends the block
(45_block_fsm.md R308). -/
theorem execStoredByte_eq (b : Byte) (s : State) :
    execStoredByte b s = .next { s with
      sink := s.sink.append b
      stRem := s.stRem - 1
      phase := if s.stRem = 1 then (if s.bfinal then .done else .hdr) else s.phase } := by
  have hlast : s.stRem - 1 = 0 ↔ s.stRem = 1 := sub_eq_zero
  unfold execStoredByte
  by_cases h : s.stRem = 1
  · rw [if_pos (hlast.2 h), if_pos h]
    rfl
  · rw [if_neg (mt hlast.1 h), if_neg h]
    rfl

/-- Settles O37: the new sink is that of appendByte, and the rest of the state is execStoredByte_eq. -/
theorem storedByteAppends : Obligations.StoredByteAppends :=
  fun b s hram hheld => ⟨s.sink.append b, Sink.append_appended hram hheld b, execStoredByte_eq b s⟩

end Sys2Proof.Machine

namespace Sys2Proof.Machine

/-! ### The step as a run of elements (45_block_fsm.md R300, 47_symbols.md R360, R378) -/

theorem runElement_of_decoded {c : Context} {i : Instr} {s : State} {r : BitReader}
    (hd : decodeElement c s.inBytes s.br = .ok (.ok i) r) : runElement c s = exec i (s.withReader r) := by
  rw [runElement, hd]

theorem finishPair_of_no_pending {t : State} (hm : t.matchLen = none) : finishPair (.next t) = .next t := by
  simp [finishPair, hm]

theorem finishPair_of_pending {t : State} (hm : t.matchLen.isSome = true) :
    finishPair (.next t) = runElement (.dist (distTree t)) t :=
  if_pos hm

/-- A length code is the write of MATCH_LEN at its own code and extra value (47_symbols.md R363). -/
theorem exec_eq_setMatchLength {i : Instr} (hll : i.format = .ll) (hlo : 257 ≤ i.symbol) (hhi : i.symbol ≤ 285)
    (s : State) : exec i s = setMatchLength i.symbol i.extraValue s := by
  cases i <;> cases hll
  case lit b => exact absurd b.isLt (by simp only [Instr.symbol] at hlo; omega)
  case eob => exact absurd hlo (by decide)
  case llInvalid286 | llInvalid287 => exact absurd hhi (by decide)
  all_goals rfl

/-- A literal, end of block and an illegal symbol leave no length pending (47_symbols.md R361, R362, R372). -/
theorem exec_keeps_no_pending {i : Instr} (hll : i.format = .ll) (hcode : ¬(257 ≤ i.symbol ∧ i.symbol ≤ 285))
    {s : State} (hm : s.matchLen = none) : ∃ t, exec i s = .next t ∧ t.matchLen = none := by
  cases i <;> cases hll
  case lit | eob => exact ⟨_, rfl, hm⟩
  case llInvalid286 | llInvalid287 => exact ⟨_, rfl, rfl⟩
  all_goals simp [Instr.symbol] at hcode

/-- Settles O13: after a length code MATCH_LEN is pending, and the step goes on; after any other symbol it is over. -/
theorem stepRunsDecodedElement : Obligations.StepRunsDecodedElement := by
  refine ⟨fun s c i r hp hc hd => (step_element hp hc).trans (runElement_of_decoded hd), fun s i r hp hm hd => ?_⟩
  have hll : i.format = .ll := decodeElement_format hd
  rw [step_sym hp hm, runElement_of_decoded hd]
  refine ⟨fun hcode => ?_, fun j u q hlo hhi hexec hdist => ?_⟩
  · obtain ⟨t, ht, hnone⟩ := exec_keeps_no_pending hll hcode (s := s.withReader r) hm
    rw [ht, finishPair_of_no_pending hnone]
  · have hpending : u.matchLen.isSome = true := by
      cases (exec_eq_setMatchLength hll hlo hhi _).symm.trans hexec
      rfl
    rw [hexec, finishPair_of_pending hpending, runElement_of_decoded hdist]

/-! ### Which phases have a step (45_block_fsm.md R300) -/

/-- Settles O10: these phases neither build nor take an element. -/
theorem waitingPhaseTakesNoStep : Obligations.WaitingPhaseTakesNoStep := by
  rintro s (hp | hp | hp) <;> simp [step, stepPhase, elementContext, hp]

theorem elementContext_of_live {s : State} (hlive : s.phase.live = true) (hcl : s.phase ≠ .dynClBuild)
    (hbuild : s.phase ≠ .dynBuild) : ∃ c, elementContext s = some c := by
  cases hp : s.phase
  case idle | done | failed => simp [hp, Phase.live] at hlive
  case dynClBuild => exact absurd hp hcl
  case dynBuild => exact absurd hp hbuild
  all_goals exact ⟨_, by rw [elementContext, hp]⟩

/-- A distance element is expected only with a length pending (47_symbols.md R373). -/
theorem pending_of_elementContext {s : State} {c : Context} (hc : elementContext s = some c) (hd : c.format = .d) :
    s.matchLen.isSome = true := by
  have hp : s.phase = .sym := (phase_of_elementContext hc).trans (by rw [hd]; rfl)
  by_contra hm
  simp only [elementContext, hp, hm, Option.some.injEq] at hc
  subst hc
  cases hd

/-- Fetching and running an element has a next state, whatever the bits are (41_bitreader.md R201, 43_huffman.md R250). -/
theorem runElement_next {c : Context} {s : State} (hm : c.format = .d → s.matchLen.isSome = true) :
    ∃ t, runElement c s = .next t := by
  rcases runElement_cases c s with ⟨i, r, hd, hrun⟩ | ⟨e, r, -, hrun⟩ | ⟨r, -, hrun⟩ <;> rw [hrun]
  · exact exec_next i _ fun hi => hm ((decodeElement_format hd).symm.trans hi)
  · exact ⟨_, rfl⟩
  · exact ⟨_, rfl⟩

theorem finishPair_next (u : State) : ∃ t, finishPair (.next u) = .next t := by
  by_cases hm : u.matchLen.isSome = true
  · rw [finishPair_of_pending hm]
    exact runElement_next fun _ => hm
  · exact ⟨u, finishPair_of_no_pending (Option.not_isSome_iff_eq_none.1 hm)⟩

/-- Settles O9: a build is total, and so is the run of an element, and of the distance after it. -/
theorem livePhaseAlwaysSteps : Obligations.LivePhaseAlwaysSteps := by
  intro s hlive
  by_cases hcl : s.phase = .dynClBuild
  · exact ⟨_, step_clBuild hcl⟩
  by_cases hbuild : s.phase = .dynBuild
  · exact ⟨_, step_build hbuild⟩
  obtain ⟨c, hc⟩ := elementContext_of_live hlive hcl hbuild
  obtain ⟨u, hu⟩ := runElement_next (pending_of_elementContext hc)
  rcases step_of_elementContext hc with hstep | hstep <;> rw [hstep, hu]
  · exact ⟨u, rfl⟩
  · exact finishPair_next u

/-! ### Everything a step can be -/

/-- The run of a pair is over after its first element, or went on with a distance element. -/
theorem finishPair_cases {o : Result} {t : State} (h : finishPair o = .next t) :
    o = .next t ∨ ∃ u, o = .next u ∧ u.matchLen.isSome = true ∧ runElement (.dist (distTree u)) u = .next t := by
  cases o with
  | fault f => cases h
  | refused r => cases h
  | next u =>
    by_cases hm : u.matchLen.isSome = true
    · exact .inr ⟨u, rfl, hm, by rwa [finishPair_of_pending hm] at h⟩
    · rw [finishPair_of_no_pending (Option.not_isSome_iff_eq_none.1 hm)] at h
      exact .inl h

/-- A step is a build, the run of one element, or the run of two, the second a distance (45_block_fsm.md R300,
47_symbols.md R360). -/
theorem step_cases {s t : State} (h : step s = .next t) :
    (s.phase = .dynClBuild ∧ t = stepClBuild s) ∨ (s.phase = .dynBuild ∧ t = stepBuild s) ∨
    ∃ c, elementContext s = some c ∧
      (runElement c s = .next t ∨
        ∃ u, runElement c s = .next u ∧ u.matchLen.isSome = true ∧ runElement (.dist (distTree u)) u = .next t) := by
  by_cases hcl : s.phase = .dynClBuild
  · rw [step_clBuild hcl] at h
    cases h
    exact .inl ⟨hcl, rfl⟩
  by_cases hbuild : s.phase = .dynBuild
  · rw [step_build hbuild] at h
    cases h
    exact .inr (.inl ⟨hbuild, rfl⟩)
  obtain ⟨c, hc⟩ := elementContext_of_step hcl hbuild h
  refine .inr (.inr ⟨c, hc, ?_⟩)
  rcases step_of_elementContext hc with hstep | hstep
  · exact .inl (hstep ▸ h)
  · exact finishPair_cases (hstep ▸ h)

end Sys2Proof.Machine

namespace Sys2Proof.Machine

/-! ### Where PHASE can go (45_block_fsm.md R301 to R310, R318) -/

/-- The elements that can end a block: a stored header, a stored byte, a literal/length symbol (45_block_fsm.md R309). -/
def endsBlocks : Format → Bool
  | .sh | .sb | .ll => true
  | _ => false

/-- Where an element of format `f` leaves PHASE: in FAILED, in a live phase, where it was, or, at the end of a final block,
in DONE. The last two leave BFINAL alone. -/
def PhaseAfter (f : Format) (s t : State) : Prop :=
  t.HasFailed ∨ t.phase.live = true ∨
    (t.bfinal = s.bfinal ∧ (t.phase = s.phase ∨ endsBlocks f = true ∧ t.phase = .done ∧ s.bfinal = true))

theorem PhaseAfter.failed {f : Format} {s t : State} (h : t.HasFailed) : PhaseAfter f s t := .inl h

theorem PhaseAfter.live {f : Format} {s t : State} (h : t.phase.live = true) : PhaseAfter f s t := .inr (.inl h)

theorem PhaseAfter.same {f : Format} {s t : State} (hbfinal : t.bfinal = s.bfinal) (hphase : t.phase = s.phase) :
    PhaseAfter f s t := .inr (.inr ⟨hbfinal, .inl hphase⟩)

/-- 45_block_fsm.md R309: endBlock enters DONE only with BFINAL set. -/
theorem endBlock_phaseAfter {f : Format} (hf : endsBlocks f = true) {s u : State} (hbfinal : u.bfinal = s.bfinal) :
    PhaseAfter f s (endBlock u) := by
  cases hfinal : u.bfinal with
  | false => exact .live (by simp [hfinal, Phase.live])
  | true => exact .inr (.inr ⟨hbfinal, .inr ⟨hf, by simp [hfinal], hbfinal ▸ hfinal⟩⟩)

theorem copyMatch_phaseAfter (f : Format) (code e : Nat) (s : State) :
    NextHas (PhaseAfter f s) (copyMatch code e s) := by
  rcases copyMatch_cases code e s with ⟨-, h⟩ | ⟨_, -, -, h⟩ | ⟨_, -, -, h⟩ <;> rw [h]
  · exact nextHas_fault _ _
  · exact nextHas_next.2 (.failed (failStructural_hasFailed _ s))
  · exact nextHas_next.2 (.same rfl rfl)

theorem storeLengths_phaseAfter (f : Format) (rep : Nat) (v : BitVec 4) (s : State) :
    NextHas (PhaseAfter f s) (storeLengths rep v s) := by
  rcases storeLengths_cases rep v s with ⟨-, h⟩ | ⟨-, h⟩ <;> rw [h] <;> refine nextHas_next.2 ?_
  · exact .failed (failStructural_hasFailed _ s)
  · by_cases hend : s.lensIdx.toNat + rep = lensTotal s.hlit s.hdist
    · exact .live (by simp [hend, Phase.live])
    · exact .same rfl (if_neg hend)

theorem execStoredHdr_phaseAfter (len nlen : BitVec 16) (s : State) :
    NextHas (PhaseAfter .sh s) (execStoredHdr len nlen s) := by
  unfold execStoredHdr
  dsimp only
  split_ifs <;> refine nextHas_next.2 ?_
  · exact .failed (failStructural_hasFailed _ _)
  · exact endBlock_phaseAfter rfl rfl
  · exact .live rfl

theorem execStoredByte_phaseAfter (b : Byte) (s : State) : NextHas (PhaseAfter .sb s) (execStoredByte b s) := by
  unfold execStoredByte
  dsimp only
  split_ifs <;> refine nextHas_next.2 ?_
  · exact endBlock_phaseAfter rfl rfl
  · exact .same rfl rfl

theorem execDynHdr_phaseAfter (hlit hdist : BitVec 5) (hclen : BitVec 4) (s : State) :
    NextHas (PhaseAfter .dh s) (execDynHdr hlit hdist hclen s) := by
  unfold execDynHdr
  dsimp only
  split_ifs <;> refine nextHas_next.2 ?_
  · exact .failed (failStructural_hasFailed _ _)
  · exact .live rfl

theorem execClLength_phaseAfter (len : BitVec 3) (s : State) : NextHas (PhaseAfter .cll s) (execClLength len s) := by
  unfold execClLength
  dsimp only
  split_ifs <;> refine nextHas_next.2 ?_
  · exact .live rfl
  · exact .same rfl rfl

theorem execClRepPrev_phaseAfter (extra : BitVec 2) (s : State) :
    NextHas (PhaseAfter .cls s) (execClRepPrev extra s) := by
  unfold execClRepPrev
  split_ifs
  · exact nextHas_next.2 (.failed (failStructural_hasFailed _ s))
  · exact storeLengths_phaseAfter _ _ _ s

theorem exec_phaseAfter (i : Instr) (s : State) : NextHas (PhaseAfter i.format s) (exec i s) := by
  cases i
  case blockStored | blockFixed | blockDynamic => exact nextHas_next.2 (.live rfl)
  case blockReserved | llInvalid286 | llInvalid287 | distInvalid30 | distInvalid31 =>
    exact nextHas_next.2 (.failed (failStructural_hasFailed _ _))
  case storedHdr len nlen => exact execStoredHdr_phaseAfter len nlen s
  case storedByte b => exact execStoredByte_phaseAfter b s
  case dynHdr hlit hdist hclen => exact execDynHdr_phaseAfter hlit hdist hclen s
  case clLength len => exact execClLength_phaseAfter len s
  case clRepPrev extra => exact execClRepPrev_phaseAfter extra s
  case clLen | clRepZeroShort | clRepZeroLong => exact storeLengths_phaseAfter _ _ _ s
  case eob => exact nextHas_next.2 (endBlock_phaseAfter rfl rfl)
  case lit | len257 | len258 | len259 | len260 | len261 | len262 | len263 | len264 | len265 | len266 | len267 |
      len268 | len269 | len270 | len271 | len272 | len273 | len274 | len275 | len276 | len277 | len278 | len279 |
      len280 | len281 | len282 | len283 | len284 | len285 =>
    exact nextHas_next.2 (.same rfl rfl)
  all_goals exact copyMatch_phaseAfter _ _ _ s

theorem runElement_phaseAfter (c : Context) (s : State) : NextHas (PhaseAfter c.format s) (runElement c s) := by
  rcases runElement_cases c s with ⟨i, r, hd, h⟩ | ⟨e, r, -, h⟩ | ⟨r, -, h⟩ <;> rw [h]
  · rw [← decodeElement_format hd]
    exact exec_phaseAfter i (s.withReader r)
  · exact nextHas_next.2 (.failed (failStructural_hasFailed _ _))
  · exact nextHas_next.2 (.failed (failExhausted_hasFailed _))

/-- A distance element ends no block, so after it PHASE is where the element before it could leave it. -/
theorem PhaseAfter.trans_dist {f : Format} {s u t : State} (hsu : PhaseAfter f s u) (hm : u.matchLen.isSome = true)
    (hut : PhaseAfter .d u t) : PhaseAfter f s t := by
  have hu : ¬u.HasFailed := fun ⟨_, hnone⟩ => by simp [hnone] at hm
  rcases hut with hfailed | hlive | ⟨hbfinal, hphase | ⟨hends, -⟩⟩
  · exact .failed hfailed
  · exact .live hlive
  · rcases hsu.resolve_left hu with hlive | ⟨hbfinal', hphase'⟩
    · exact .live (by rw [hphase, hlive])
    · exact .inr (.inr ⟨hbfinal.trans hbfinal', hphase ▸ hphase'⟩)
  · cases hends

theorem stepClBuild_phase (s : State) : (stepClBuild s).phase = .failed ∨ (stepClBuild s).phase = .dynLens := by
  unfold stepClBuild
  split
  · exact .inl rfl
  · exact .inr rfl

theorem stepBuild_phase (s : State) : (stepBuild s).phase = .failed ∨ (stepBuild s).phase = .sym := by
  unfold stepBuild
  split
  · exact .inl rfl
  · split
    · exact .inl rfl
    · exact .inr rfl

theorem live_of_elementContext {s : State} {c : Context} (hc : elementContext s = some c) : s.phase.live = true := by
  rw [phase_of_elementContext hc]
  exact phaseTaking_live _

/-- The phases whose step can end a block are those that take an element that can (45_block_fsm.md R309). -/
theorem phaseTaking_of_endsBlocks {f : Format} (h : endsBlocks f = true) :
    phaseTaking f = .storedHdr ∨ phaseTaking f = .storedCopy ∨ phaseTaking f = .sym := by
  cases f
  case sh => exact .inl rfl
  case sb => exact .inr (.inl rfl)
  case ll => exact .inr (.inr rfl)
  all_goals cases h

/-- A step ends in FAILED, in a live phase, or at the end of a final block in DONE (45_block_fsm.md R300, R309). -/
theorem step_phase {s t : State} (h : step s = .next t) :
    t.phase = .failed ∨ t.phase.live = true ∨
    (t.phase = .done ∧ (s.phase = .storedHdr ∨ s.phase = .storedCopy ∨ s.phase = .sym) ∧ s.bfinal = true ∧
      t.bfinal = true) := by
  rcases step_cases h with ⟨-, rfl⟩ | ⟨-, rfl⟩ | ⟨c, hc, hrun⟩
  · exact (stepClBuild_phase s).imp_right fun hp => .inl (by rw [hp]; rfl)
  · exact (stepBuild_phase s).imp_right fun hp => .inl (by rw [hp]; rfl)
  · have hafter : PhaseAfter c.format s t := by
      rcases hrun with hrun | ⟨u, hrun, hm, hdist⟩
      · exact runElement_phaseAfter c s t hrun
      · exact (runElement_phaseAfter c s u hrun).trans_dist hm (runElement_phaseAfter _ u t hdist)
    rcases hafter with ⟨hfailed, -⟩ | hlive | ⟨hbfinal, hphase | ⟨hends, hdone, hfinal⟩⟩
    · exact .inl hfailed
    · exact .inr (.inl hlive)
    · exact .inr (.inl (by rw [hphase, live_of_elementContext hc]))
    · have hp := phase_of_elementContext hc ▸ phaseTaking_of_endsBlocks hends
      exact .inr (.inr ⟨hdone, hp, hfinal, hbfinal.trans hfinal⟩)

/-- Settles O16: of the phases a step can end in, DONE is neither FAILED nor live. -/
theorem doneOnlyAfterFinalBlock : Obligations.DoneOnlyAfterFinalBlock := by
  intro s t h hdone
  rcases step_phase h with hfailed | hlive | ⟨-, hfinal⟩
  · cases hdone.symm.trans hfailed
  · simp [hdone, Phase.live] at hlive
  · exact hfinal

end Sys2Proof.Machine

namespace Sys2Proof.Machine

/-! ### A step keeps the reader within IN -/

theorem runElement_within {c : Context} {s t : State} (hs : s.br.Within s.inBytes) (h : runElement c s = .next t) :
    t.HasFailed ∨ t.br.Within t.inBytes := by
  rcases runElement_cases c s with ⟨i, r, hd, hrun⟩ | ⟨e, r, -, hrun⟩ | ⟨r, -, hrun⟩
  · have hr : r.Within s.inBytes := decodeElement_leaves (within_keptByFetches _) c hs _ r hd
    obtain ⟨hinput, hbr⟩ := exec_keepsReader i (s.withReader r) t (hrun ▸ h)
    refine hbr.imp_right fun hbr => ?_
    rw [hbr, State.inBytes, hinput]
    exact hr
  · cases hrun.symm.trans h
    exact .inl (failStructural_hasFailed _ _)
  · cases hrun.symm.trans h
    exact .inl (failExhausted_hasFailed _)

theorem step_within {s t : State} (hs : s.br.Within s.inBytes) (h : step s = .next t) :
    t.HasFailed ∨ t.br.Within t.inBytes := by
  by_cases hbuild : s.phase = .dynClBuild ∨ s.phase = .dynBuild
  · obtain ⟨hinput, hbr⟩ := step_keepsReader_of_build hbuild t h
    refine hbr.imp_right fun hbr => ?_
    rw [hbr, State.inBytes, hinput]
    exact hs
  · rcases step_cases h with ⟨hcl, -⟩ | ⟨hb, -⟩ | ⟨c, -, hrun | ⟨u, hrun, hm, hdist⟩⟩
    · exact absurd (.inl hcl) hbuild
    · exact absurd (.inr hb) hbuild
    · exact runElement_within hs hrun
    · have hu : ¬u.HasFailed := fun ⟨_, hnone⟩ => by simp [hnone] at hm
      exact runElement_within ((runElement_within hs hrun).resolve_left hu) hdist

/-! ### The steps a run has left (45_block_fsm.md R317) -/

/-- Two steps for each bit to come, the one that takes it and a build after it, and one for a build that is next. -/
def State.stepsLeft (s : State) : Int :=
  2 * (8 * s.inBytes.length - streamPosition s.br) +
    if s.phase = .dynClBuild ∨ s.phase = .dynBuild then 1 else 0

theorem State.stepsLeft_nonneg {s : State} (hs : s.br.Within s.inBytes) : 0 ≤ s.stepsLeft := by
  obtain ⟨-, hconsumed⟩ := hs
  unfold stepsLeft streamPosition
  split <;> omega

/-- No build step follows a build step: DYN_LENS and SYM take an element. -/
theorem step_phase_of_build {s t : State} (hbuild : s.phase = .dynClBuild ∨ s.phase = .dynBuild)
    (h : step s = .next t) : ¬(t.phase = .dynClBuild ∨ t.phase = .dynBuild) := by
  rcases hbuild with hp | hp
  · cases (step_clBuild hp).symm.trans h
    rcases stepClBuild_phase s with ht | ht <;> simp [ht]
  · cases (step_build hp).symm.trans h
    rcases stepBuild_phase s with ht | ht <;> simp [ht]

/-- An element takes a bit, and so pays for itself and a build after it; a build has been paid for. -/
theorem step_stepsLeft_lt {s t : State} (hlen : s.inBytes.length < Config.inputLimit) (h : step s = .next t)
    (ht : ¬t.HasFailed) : t.stepsLeft < s.stepsLeft := by
  unfold State.stepsLeft
  by_cases hbuild : s.phase = .dynClBuild ∨ s.phase = .dynBuild
  · obtain ⟨hinput, hbr⟩ := step_keepsReader_of_build hbuild t h
    rw [if_pos hbuild, if_neg (step_phase_of_build hbuild h), hbr.resolve_left ht, State.inBytes, hinput,
      ← State.inBytes]
    omega
  · obtain ⟨hcl, hb⟩ := not_or.1 hbuild
    obtain ⟨hinput, hpos⟩ := step_advances hlen hcl hb h
    have hlt : streamPosition s.br < streamPosition t.br := hpos.resolve_left ht
    rw [if_neg hbuild, State.inBytes, hinput, ← State.inBytes]
    split <;> omega

/-! ### The end of a run (45_block_fsm.md R313, R317) -/

theorem runSteps_of_finished {s : State} (h : s.finished) (k : Nat) : runSteps step k s = s := by
  cases k with
  | zero => rfl
  | succ k => rw [runSteps, waitingPhaseTakesNoStep s (.inr h)]

theorem runSteps_succ {s t : State} (h : step s = .next t) (k : Nat) :
    runSteps step (k + 1) s = runSteps step k t := by
  rw [runSteps, h]

/-- A live run finishes within any number of steps above those it has left. -/
theorem runSteps_finished {s : State} {k : Nat} (hlive : s.phase.live = true) (hs : s.br.Within s.inBytes)
    (hk : s.stepsLeft < k) : (runSteps step k s).finished := by
  induction k generalizing s with
  | zero => exact absurd (s.stepsLeft_nonneg hs) (not_le_of_gt hk)
  | succ k ih =>
    obtain ⟨t, ht⟩ := livePhaseAlwaysSteps s hlive
    rw [runSteps_succ ht]
    rcases step_phase ht with hfailed | htlive | ⟨hdone, -⟩
    · rw [runSteps_of_finished (.inr hfailed)]
      exact .inr hfailed
    · have hnot : ¬t.HasFailed := fun ⟨hfailed, _⟩ => by simp [hfailed, Phase.live] at htlive
      have hlt : t.stepsLeft < s.stepsLeft := step_stepsLeft_lt hs.1.length_lt ht hnot
      exact ih htlive ((step_within hs ht).resolve_left hnot) (by omega)
    · rw [runSteps_of_finished (.inl hdone)]
      exact .inl hdone

/-- START answers a next state only for a launch below the input limit: the fresh attempt in HDR (49_host_interface.md
R402). -/
theorem startCommand_eq_next {launch : List Byte} {s t : State} (h : startCommand launch s = .next t) :
    launch.length < Config.inputLimit ∧ t = { clearAttempt s with input := some launch, phase := .hdr } := by
  unfold startCommand at h
  split at h
  · cases h
  · next hlt =>
    cases h
    exact ⟨Nat.lt_of_not_le hlt, rfl⟩

/-- Settles O11: START leaves 8N bits to come, which is 16N steps. -/
theorem runEndsWithinBound : Obligations.RunEndsWithinBound := by
  intro s t launch h
  obtain ⟨hlen, rfl⟩ := startCommand_eq_next h
  have hleft : State.stepsLeft { clearAttempt s with input := some launch, phase := .hdr } = 16 * launch.length := by
    simp [State.stepsLeft, streamPosition, clearAttempt, BitReader.fresh, State.inBytes]
    omega
  exact runSteps_finished rfl ⟨⟨rfl, Nat.zero_le _, hlen⟩, Nat.zero_le _⟩ (by omega)

end Sys2Proof.Machine

namespace Sys2Proof.Machine

/-! ### What the meanings of the dynamic header answer (46_dynamic_header.md R330 to R345) -/

theorem execDynHdr_of_legal {hlit : BitVec 5} (h : hlit.toNat ≤ 29) (hdist : BitVec 5) (hclen : BitVec 4) (s : State) :
    execDynHdr hlit hdist hclen s = .next { s with
      hlit := hlit, hdist := hdist, hclen := hclen, clLen := Vector.replicate 19 0, clIdx := 0, phase := .dynCll } :=
  if_neg (by unfold litLenCount; omega)

theorem execDynHdr_of_large {hlit : BitVec 5} (h : 30 ≤ hlit.toNat) (hdist : BitVec 5) (hclen : BitVec 4) (s : State) :
    execDynHdr hlit hdist hclen s =
      .next (failStructural .hlitTooLarge { s with hlit := hlit, hdist := hdist, hclen := hclen }) :=
  if_pos (by unfold litLenCount; omega)

/-- Settles O38: the check of HLIT comes before any other register is cleared. -/
theorem dynamicHeaderEffects : Obligations.DynamicHeaderEffects := fun _ hdist hclen s =>
  ⟨fun hlegal => execDynHdr_of_legal hlegal hdist hclen s,
    fun hlarge => ⟨_, execDynHdr_of_large hlarge hdist hclen s, failStructural_failedWith_of_kept _ rfl rfl⟩⟩

/-- Every entry of CL_LEN after a field: only the symbol of ORDER[CL_IDX] is written (46_dynamic_header.md R334). -/
theorem storeClLength_getElem (v : BitVec 3) (s : State) (k : Nat) (hk : k < 19) :
    (storeClLength v s)[k] = if orderTable[s.clIdx.toNat]? = some k then v else s.clLen[k] := by
  unfold storeClLength
  cases orderTable[s.clIdx.toNat]? with
  | none => simp
  | some symbol => simp [Vector.getElem_setIfInBounds hk]

theorem execClLength_eq (v : BitVec 3) (s : State) :
    execClLength v s = .next { s with
      clLen := storeClLength v s, clIdx := s.clIdx + 1
      phase := if (s.clIdx + 1).toNat = codeLengthCount s.hclen then .dynClBuild else s.phase } := by
  unfold execClLength
  by_cases hlast : (s.clIdx + 1).toNat = codeLengthCount s.hclen
  · rw [if_pos hlast, if_pos hlast]
    rfl
  · rw [if_neg hlast, if_neg hlast]

/-- Settles O39: below 19 fields CL_IDX counts up without wrapping, so the last field is field HCLEN + 3. -/
theorem codeLengthFieldEffects : Obligations.CodeLengthFieldEffects := by
  refine ⟨rfl, fun v s hidx => ⟨storeClLength v s, fun k => storeClLength_getElem v s k k.isLt, ?_⟩⟩
  have hnext : (s.clIdx + 1).toNat = s.clIdx.toNat + 1 := by bv_omega
  rw [← hnext]
  exact execClLength_eq v s

/-- Settles O40: the two outcomes of build are the two of the step. -/
theorem codeLengthTreeIsBuilt : Obligations.CodeLengthTreeIsBuilt := by
  intro s hp
  rw [step_clBuild hp, stepClBuild]
  refine ⟨fun t hbuild => by rw [hbuild], fun hbuild => ?_⟩
  rw [hbuild]
  exact ⟨_, rfl, failStructural_failedWith _ s⟩

/-! ### Storing code lengths (46_dynamic_header.md R336 to R342) -/

theorem storeLengths_of_overrun {rep : Nat} {s : State} (h : lensTotal s.hlit s.hdist < s.lensIdx.toNat + rep)
    (v : BitVec 4) : storeLengths rep v s = .next (failStructural .clRepeatOverrun s) :=
  if_pos h

/-- 46_dynamic_header.md R339, R345: symbol 16 looks for a previous length first. -/
theorem execClRepPrev_of_first {s : State} (h : s.lensIdx = 0) (e : BitVec 2) :
    execClRepPrev e s = .next (failStructural .clRepeatNoPrevious s) :=
  if_pos h

theorem execClRepPrev_of_previous {s : State} (h : s.lensIdx ≠ 0) (e : BitVec 2) :
    execClRepPrev e s = storeLengths (3 + e.toNat) (previousLength s) s :=
  if_neg h

theorem previousLength_eq {s : State} {v : BitVec 4} (h : s.lens[s.lensIdx.toNat - 1]? = some v) :
    previousLength s = v := by
  rw [previousLength, h, Option.getD_some]

/-- The entries from LENS_IDX on take `v` and no other entry changes; LENS_IDX does not wrap, because there are at most 318
lengths (46_dynamic_header.md R336). -/
theorem storeLengths_of_fits {rep : Nat} {s : State} (hhlit : s.hlit.toNat ≤ 29)
    (hfits : s.lensIdx.toNat + rep ≤ lensTotal s.hlit s.hdist) (v : BitVec 4) :
    ∃ (lens : Vector (BitVec 4) 318) (idx : BitVec 9), idx.toNat = s.lensIdx.toNat + rep ∧
      (∀ k : Fin 318, lens[k] = if s.lensIdx.toNat ≤ k.val ∧ k.val < idx.toNat then v else s.lens[k]) ∧
      storeLengths rep v s = .next { s with
        lens := lens, lensIdx := idx
        phase := if idx.toNat = lensTotal s.hlit s.hdist then .dynBuild else s.phase } := by
  have htotal : lensTotal s.hlit s.hdist ≤ 318 := by unfold lensTotal; omega
  have hnext : (s.lensIdx + BitVec.ofNat 9 rep).toNat = s.lensIdx.toNat + rep := by bv_omega
  refine ⟨fillLens v rep s.lensIdx.toNat s.lens, s.lensIdx + BitVec.ofNat 9 rep, hnext, fun k => ?_, ?_⟩
  · rw [hnext]
    exact fillLens_getElem v rep s.lensIdx.toNat s.lens k k.isLt
  · rw [hnext, storeLengths, if_neg (Nat.not_lt_of_le hfits)]

/-- Settles O41: each symbol is one storeLengths, at its own count and value; symbol 16 takes the value before LENS_IDX. -/
theorem codeLengthSymbolsStoreLengths : Obligations.CodeLengthSymbolsStoreLengths := by
  intro s hhlit
  refine ⟨fun len hfits => storeLengths_of_fits hhlit hfits len, fun e v hprev hv hfits => ?_,
    fun e hfirst => ⟨_, execClRepPrev_of_first hfirst e, failStructural_failedWith _ s⟩,
    fun e hfits => storeLengths_of_fits hhlit hfits 0, fun e hfits => storeLengths_of_fits hhlit hfits 0⟩
  rw [exec, execClRepPrev_of_previous hprev, previousLength_eq hv]
  exact storeLengths_of_fits hhlit hfits v

/-- Settles O43: the check of the count comes before any entry is written. -/
theorem repeatOverrunFails : Obligations.RepeatOverrunFails := by
  intro s
  have overruns {rep : Nat} (h : lensTotal s.hlit s.hdist < s.lensIdx.toNat + rep) (v : BitVec 4) :
      ∃ t, storeLengths rep v s = .next t ∧ FailedWith .structuralViolation .clRepeatOverrun s t :=
    ⟨_, storeLengths_of_overrun h v, failStructural_failedWith _ s⟩
  refine ⟨fun e hprev hover => ?_, fun e hover => overruns hover 0, fun e hover => overruns hover 0⟩
  change ∃ t, execClRepPrev e s = .next t ∧ _
  rw [execClRepPrev_of_previous hprev]
  exact overruns hover _

/-- Settles O42: with no previous length the code of symbol 16 is the whole element, whose meaning fails at once. -/
theorem repeatWithNoPreviousFails : Obligations.RepeatWithNoPreviousFails := by
  intro s code rest hp hfirst hready hcode hbits
  have henc : encode (.clSymbol s.treeCl false) (.clRepPrev 0#2) = some code :=
    (encode_clSymbol_noPrevious rfl rfl).trans hcode
  obtain ⟨r, hdecode, -, -⟩ := clSymbolContext_delivers henc s.br rest hready hbits
  have hcontext : elementContext s = some (.clSymbol s.treeCl false) := by simp [elementContext, hp, hfirst]
  have hstep : step s = exec (.clRepPrev 0#2) (s.withReader r) :=
    (step_element (by simp [hp]) hcontext).trans (runElement_of_decoded hdecode)
  have hfails := execClRepPrev_of_first (s := s.withReader r) hfirst 0#2
  exact ⟨_, hstep.trans hfails, failStructural_failedWith_of_kept _ rfl rfl⟩

/-! ### The block's trees (46_dynamic_header.md R344) -/

/-- Settles O44: the literal/length tree is built first, and the failure of the second build follows its write. -/
theorem blockTreesAreBuilt : Obligations.BlockTreesAreBuilt := by
  intro s hp
  change (∀ tll td, build (litLenLengths s) [] = some tll → build (distLengths s) [] = some td → _) ∧
    (build (litLenLengths s) [] = none ∨ build (distLengths s) [] = none → _)
  rw [step_build hp, stepBuild]
  refine ⟨fun tll td hll hd => ?_, fun hnone => ?_⟩
  · rw [hll, hd]
    exact ⟨_, rfl, rfl, rfl, rfl⟩
  · cases hll : build (litLenLengths s) [] with
    | none => exact ⟨_, rfl, failStructural_failedWith _ s⟩
    | some tll =>
      have hd : build (distLengths s) [] = none := hnone.resolve_left (by simp [hll])
      rw [hd]
      exact ⟨_, rfl, failStructural_failedWith_of_kept _ rfl rfl⟩

/-! ### Headers leave the window alone (45_block_fsm.md R301, 46_dynamic_header.md R347) -/

/-- Nothing is emitted from `s` to `t`, and no window or CRC register changes unless `t` has failed. -/
def KeepsSink (s t : State) : Prop := t.sink.out = s.sink.out ∧ (t.phase ≠ .failed → t.sink = s.sink)

theorem KeepsSink.same {s t : State} (h : t.sink = s.sink) : KeepsSink s t := ⟨by rw [h], fun _ => h⟩

/-- The failure entry keeps OUT, whatever registers were written before it. -/
theorem KeepsSink.failed {s u : State} (kind : FailKind) (cause : FailCause) (h : u.sink = s.sink) :
    KeepsSink s (raiseFail kind cause u) := ⟨by rw [raiseFail_out, h], fun hp => absurd rfl hp⟩

theorem storeLengths_keepsSink (rep : Nat) (v : BitVec 4) (s : State) :
    NextHas (KeepsSink s) (storeLengths rep v s) := by
  rcases storeLengths_cases rep v s with ⟨-, h⟩ | ⟨-, h⟩ <;> rw [h]
  · exact nextHas_next.2 (.failed _ _ rfl)
  · exact nextHas_next.2 (.same rfl)

theorem execClLength_keepsSink (v : BitVec 3) (s : State) : NextHas (KeepsSink s) (execClLength v s) :=
  execClLength_eq v s ▸ nextHas_next.2 (.same rfl)

theorem execDynHdr_keepsSink (hlit hdist : BitVec 5) (hclen : BitVec 4) (s : State) :
    NextHas (KeepsSink s) (execDynHdr hlit hdist hclen s) := by
  rcases Nat.lt_or_ge 29 hlit.toNat with hlarge | hlegal
  · exact execDynHdr_of_large hlarge hdist hclen s ▸ nextHas_next.2 (.failed _ _ rfl)
  · exact execDynHdr_of_legal hlegal hdist hclen s ▸ nextHas_next.2 (.same rfl)

theorem execClRepPrev_keepsSink (e : BitVec 2) (s : State) : NextHas (KeepsSink s) (execClRepPrev e s) := by
  by_cases hfirst : s.lensIdx = 0
  · exact execClRepPrev_of_first hfirst e ▸ nextHas_next.2 (.failed _ _ rfl)
  · exact execClRepPrev_of_previous hfirst e ▸ storeLengths_keepsSink _ _ s

/-- The formats that HDR and the DYN phases take (45_block_fsm.md R301, 46_dynamic_header.md R330 to R345). -/
def isHeaderFormat : Format → Bool
  | .bh | .dh | .cll | .cls => true
  | _ => false

/-- No header element writes the sink. -/
theorem exec_keepsSink {i : Instr} (h : isHeaderFormat i.format = true) (s : State) :
    NextHas (KeepsSink s) (exec i s) := by
  cases i <;> cases h
  case blockStored | blockFixed | blockDynamic => exact nextHas_next.2 (.same rfl)
  case blockReserved => exact nextHas_next.2 (.failed _ _ rfl)
  case dynHdr hlit hdist hclen => exact execDynHdr_keepsSink hlit hdist hclen s
  case clLength len => exact execClLength_keepsSink len s
  case clRepPrev e => exact execClRepPrev_keepsSink e s
  case clLen | clRepZeroShort | clRepZeroLong => exact storeLengths_keepsSink _ _ s

theorem runElement_keepsSink {c : Context} (h : isHeaderFormat c.format = true) (s : State) :
    NextHas (KeepsSink s) (runElement c s) := by
  rcases runElement_cases c s with ⟨i, r, hd, hrun⟩ | ⟨e, r, -, hrun⟩ | ⟨r, -, hrun⟩ <;> rw [hrun]
  · exact exec_keepsSink (decodeElement_format hd ▸ h) (s.withReader r)
  · exact nextHas_next.2 (.failed _ _ rfl)
  · exact nextHas_next.2 (.failed _ _ rfl)

theorem stepClBuild_keepsSink (s : State) : KeepsSink s (stepClBuild s) := by
  unfold stepClBuild
  split
  · exact .failed _ _ rfl
  · exact .same rfl

theorem stepBuild_keepsSink (s : State) : KeepsSink s (stepBuild s) := by
  unfold stepBuild
  split
  · exact .failed _ _ rfl
  · split
    · exact .failed _ _ rfl
    · exact .same rfl

theorem isHeaderFormat_of_phaseTaking {f : Format} {p : Phase} (hf : p = phaseTaking f)
    (hp : p = .hdr ∨ p = .dynHdr ∨ p = .dynCll ∨ p = .dynClBuild ∨ p = .dynLens ∨ p = .dynBuild) :
    isHeaderFormat f = true := by
  subst hf
  cases f
  case bh | dh | cll | cls => rfl
  all_goals simp [phaseTaking] at hp

/-- Settles O17: in these phases a step is a build or the run of one header element. -/
theorem dynamicHeaderLeavesWindow : Obligations.DynamicHeaderLeavesWindow := by
  intro s t hp h
  rcases step_cases h with ⟨-, rfl⟩ | ⟨-, rfl⟩ | ⟨c, hc, -⟩
  · exact stepClBuild_keepsSink s
  · exact stepBuild_keepsSink s
  · have hsym : s.phase ≠ .sym := fun hsym => by simp [hsym] at hp
    have hheader := isHeaderFormat_of_phaseTaking (phase_of_elementContext hc) hp
    exact runElement_keepsSink hheader s t (step_element hsym hc ▸ h)

end Sys2Proof.Machine

namespace Sys2Proof.Machine

/-! ### Literals, end of block and the illegal symbols (47_symbols.md R361, R362, R372, R375) -/

/-- Settles O45: the new sink is that of appendByte, and LIT writes no other register. -/
theorem literalAppends : Obligations.LiteralAppends :=
  fun b s hram hheld => ⟨s.sink.append b, Sink.append_appended hram hheld b, rfl⟩

theorem exec_eob (s : State) : exec .eob s = .next { s with phase := if s.bfinal then .done else .hdr } := rfl

/-- Settles O46: EOB is endBlock, at either value of BFINAL. -/
theorem endOfBlockSelectsThePhase : Obligations.EndOfBlockSelectsThePhase :=
  fun s => ⟨fun h => by rw [exec_eob, if_pos h], fun h => by rw [exec_eob, if_neg (ne_true_of_eq_false h)]⟩

/-- Settles O48: each of the four meanings is the failure entry. -/
theorem illegalSymbolsFail : Obligations.IllegalSymbolsFail := by
  intro s
  have fails {i : Instr} {cause : FailCause} (h : exec i s = .next (failStructural cause s)) :
      ∃ t, exec i s = .next t ∧ FailedWith .structuralViolation cause s t :=
    ⟨_, h, failStructural_failedWith cause s⟩
  exact ⟨List.forall_mem_cons.2 ⟨fails rfl, List.forall_mem_singleton.2 (fails rfl)⟩,
    List.forall_mem_cons.2 ⟨fails rfl, List.forall_mem_singleton.2 (fails rfl)⟩⟩

/-! ### The copy of a match (44_window.md R274 to R276, 47_symbols.md R380) -/

/-- From `k`, which holds the output `o`, the `n` bytes `copied` were appended and `k'` is left: each of them is the byte
`d` before it in the output, and WIN changed only where they were written. -/
structure Sink.CopiedOnto (k : Sink) (o : List Byte) (d n : Nat) (copied : List Byte) (k' : Sink) : Prop where
  length_eq : copied.length = n
  out_eq : k'.out = k.out ++ copied
  holds : k'.Holds (o ++ copied)
  repeats : ∀ j < n, (o ++ copied)[o.length + j]? = (o ++ copied)[o.length + j - d]?
  others : ∀ a, (∀ j < n, a ≠ (k.wp.toNat + j) % Config.windowSize) → k'.ram.read a = k.ram.read a

theorem Sink.Holds.copiedOnto_nil {k : Sink} {o : List Byte} (h : k.Holds o) (d : Nat) : k.CopiedOnto o d 0 [] k where
  length_eq := rfl
  out_eq := (List.append_nil _).symm
  holds := (List.append_nil o).symm ▸ h
  repeats := nofun
  others := fun _ _ => rfl

/-- A byte that stands `d` back in the output, appended first, makes the copy one byte longer. -/
theorem Sink.CopiedOnto.cons {k k' : Sink} {o copied : List Byte} {d n : Nat} {b : Byte}
    (h : (k.append b).CopiedOnto (o ++ [b]) d n copied k') (hd : 0 < d ∧ d ≤ o.length) (hb : o[o.length - d]? = some b) :
    k.CopiedOnto o d (n + 1) (b :: copied) k' where
  length_eq := by rw [List.length_cons, h.length_eq]
  out_eq := by rw [h.out_eq, Sink.append_out, List.append_assoc, List.singleton_append]
  holds := List.append_cons o b copied ▸ h.holds
  repeats := by
    intro j hj
    cases j with
    | zero =>
      have hsource : (o ++ b :: copied)[o.length - d]? = some b := by rw [List.getElem?_append_left (by omega), hb]
      rw [Nat.add_zero, hsource]
      simp
    | succ j =>
      have hj := h.repeats j (Nat.lt_of_succ_lt_succ hj)
      rwa [← List.append_cons, List.length_append, List.length_singleton, Nat.add_assoc, Nat.add_comm 1] at hj
  others := by
    intro a ha
    have hwp : a ≠ k.wp.toNat := by
      have hfirst := ha 0 (Nat.succ_pos n)
      rwa [Nat.add_zero, Nat.mod_eq_of_lt (b := Config.windowSize) k.wp.isLt] at hfirst
    have hnext : (k.append b).wp.toNat = (k.wp.toNat + 1) % Config.windowSize := BitVec.toNat_add ..
    rw [h.others a, Sink.append_ram, Memory.read_write_other _ _ hwp]
    intro j hj
    rw [hnext, Nat.mod_add_mod, Nat.add_assoc, Nat.add_comm 1]
    exact ha (j + 1) (Nat.succ_lt_succ hj)

/-- 44_window.md R275: the copy of `n` bytes from `back + 1` bytes before, which are held. -/
theorem Sink.copy_copiedOnto {k : Sink} {o : List Byte} (hram : Memory.wf k.ram) (hholds : k.Holds o) {back : Nat}
    (hback : back < k.held.toNat) (n : Nat) : ∃ copied, k.CopiedOnto o (back + 1) n copied (k.copy back n) := by
  induction n generalizing k o with
  | zero => exact ⟨[], hholds.copiedOnto_nil _⟩
  | succ n ih =>
    have hnext := hholds.append hram (k.byteBack back)
    have hlen : back + 1 ≤ o.length := by
      have := hholds.held_eq
      omega
    have hheld : back < (k.append (k.byteBack back)).held.toNat := by
      rw [hnext.held_eq, List.length_append]
      have := hholds.held_eq
      omega
    have hbyte : o[o.length - (back + 1)]? = some (k.byteBack back) := by
      rw [Nat.add_comm, ← Nat.sub_sub]
      exact hholds.window_eq back hback
    obtain ⟨copied, hcopied⟩ := ih (Sink.append_ram_wf hram _) hnext hheld
    exact ⟨_, hcopied.cons ⟨Nat.succ_pos back, hlen⟩ hbyte⟩

theorem copyMatch_of_lt_held {s : State} {len code e : Nat} (hm : s.matchLen = some len)
    (hheld : backDistance code e < s.sink.held.toNat) :
    copyMatch code e s = .next { s with sink := s.sink.copy (backDistance code e) len, matchLen := none } := by
  rcases copyMatch_cases code e s with ⟨hnone, -⟩ | ⟨_, -, hle, -⟩ | ⟨_, hsome, -, h⟩
  · cases hm.symm.trans hnone
  · exact absurd hheld (Nat.not_lt_of_le hle)
  · cases hm.symm.trans hsome
    exact h

/-- Settles O50: a distance that is held is copied, by induction on the length. -/
theorem distanceCodesCopy : Obligations.DistanceCodesCopy := by
  intro i s o len hd hcode hm hram hholds
  dsimp only
  rw [exec_eq_copyMatch hd hcode, ← backDistance_add_one hcode]
  intro hheld
  obtain ⟨copied, h⟩ := Sink.copy_copiedOnto hram hholds hheld len
  exact ⟨_, copied, copyMatch_of_lt_held hm hheld, h.length_eq, h.out_eq, h.holds, h.repeats, h.others⟩

/-! ### Answers of the decoder that fail the step (60_exceptions.md R451, R456) -/

/-- What the decoder answers fails the attempt with the cause: a rejection recorded with it, or an element whose meaning is
that failure. -/
def FailsAs (cause : FailCause) : Except DecodeError Instr → Prop
  | .ok i => ∀ s, exec i s = .next (failStructural cause s)
  | .error e => decodeErrorCause e = cause

theorem runElement_of_failsAs {cause : FailCause} {d : Except DecodeError Instr} (hd : FailsAs cause d) {c : Context}
    {s : State} {r : BitReader} (h : decodeElement c s.inBytes s.br = .ok d r) :
    runElement c s = .next (failStructural cause (s.withReader r)) := by
  rw [runElement, h]
  cases d with
  | ok i => exact hd _
  | error e => exact hd ▸ rfl

/-- A failing element is the whole step. -/
theorem step_fails {cause : FailCause} {d : Except DecodeError Instr} (hd : FailsAs cause d) {s : State} {c : Context}
    (hc : elementContext s = some c) {bits rest : List Bool}
    (hdelivers : Delivers s.inBytes (decodeElement c s.inBytes) bits d) (hready : ReaderReady s.inBytes s.br)
    (hbits : upcoming s.inBytes s.br = bits ++ rest) :
    ∃ t, step s = .next t ∧ FailedWith .structuralViolation cause s t := by
  obtain ⟨r, hdecode, -⟩ := hdelivers s.br rest hready hbits
  have hrun := runElement_of_failsAs hd hdecode
  refine ⟨failStructural cause (s.withReader r), ?_, failStructural_failedWith_of_kept _ rfl rfl⟩
  rcases step_of_elementContext hc with hstep | hstep
  · exact hstep.trans hrun
  · rw [hstep, hrun, finishPair_of_no_pending rfl]

theorem elementContext_sym {s : State} (hp : s.phase = .sym) (hm : s.matchLen = none) :
    elementContext s = some (.litLen (litLenTree s)) := by
  simp [elementContext, hp, hm]

theorem elementContext_dynLens {s : State} (hp : s.phase = .dynLens) :
    elementContext s = some (.clSymbol s.treeCl (s.lensIdx ≠ 0)) := by
  simp [elementContext, hp]

/-! ### The distance after a length code (47_symbols.md R360, R373, R378) -/

/-- The state between a length code and its distance: the reader `r`, and the length pending. -/
def State.afterLength (s : State) (i : Instr) (r : BitReader) : State :=
  { s with br := r, matchLen := some (matchLength i.symbol i.extraValue) }

/-- After the length code the step is the run of the distance element. -/
theorem LengthRead.step_eq {s : State} {i : Instr} {r : BitReader} (h : LengthRead s i r) :
    step s = runElement (.dist (distTree s)) (s.afterLength i r) := by
  have hlength : exec i (s.withReader r) = .next (s.afterLength i r) :=
    exec_eq_setMatchLength (decodeElement_format h.decoded) h.length_lo h.length_hi _
  rw [step_sym h.phase_eq h.no_pending, runElement_of_decoded h.decoded, hlength]
  exact finishPair_of_pending rfl

theorem ready_keptByFetches (inp : List Byte) : KeptByFetches inp (ReaderReady inp) :=
  ⟨fetchBit_ready, ReaderReady.moveToByteBoundary⟩

theorem LengthRead.ready_after {s : State} {i : Instr} {r : BitReader} (h : LengthRead s i r) :
    ReaderReady s.inBytes r :=
  decodeElement_leaves (ready_keptByFetches _) _ h.ready _ r h.decoded

theorem LengthRead.step_fails {s : State} {i : Instr} {r : BitReader} (h : LengthRead s i r) {cause : FailCause}
    {d : Except DecodeError Instr} (hd : FailsAs cause d) {bits rest : List Bool}
    (hdelivers : Delivers s.inBytes (decodeElement (.dist (distTree s)) s.inBytes) bits d)
    (hbits : upcoming s.inBytes r = bits ++ rest) :
    ∃ t, step s = .next t ∧ FailedWith .structuralViolation cause s t := by
  obtain ⟨q, hdecode, -⟩ := hdelivers r rest h.ready_after hbits
  exact ⟨_, h.step_eq.trans (runElement_of_failsAs hd hdecode), failStructural_failedWith_of_kept _ rfl rfl⟩

/-! ### Symbols outside the alphabets (47_symbols.md R372, R375) -/

section
variable {inp : List Byte} {symbol : Nat}

theorem codedElement_delivers_of_const {tree : Trie} {code : List Bool} (hcode : tree.codeOf symbol = some code)
    {invalid : DecodeError} {element : Nat → List Byte → BitReader → Decoded} {d : Except DecodeError Instr}
    (helement : element symbol inp = .ok d) : Delivers inp (codedElement tree invalid element inp) code d := by
  have hrest : Delivers inp (element symbol inp) [] d := helement.symm ▸ delivers_ok d
  rw [← List.append_nil code]
  exact (decodeSymbol_delivers hcode).andThen hrest

theorem lengthElement_of_ge (h : 288 ≤ symbol) : lengthElement symbol inp = .ok (.error .litLenSymbolRange) := by
  funext r
  unfold lengthElement
  split
  case h_33 => rfl
  all_goals omega

theorem distElement_of_ge (h : 32 ≤ symbol) : distElement symbol inp = .ok (.error .distSymbolRange) := by
  funext r
  unfold distElement
  split
  case h_33 => rfl
  all_goals omega

/-- Symbols 286 and 287 are elements that fail, the symbols above them no elements (30_encoding.md R161, log 13). -/
theorem litLenElement_outOfRange (h : 286 ≤ symbol) :
    ∃ d, FailsAs .litLenSymbolRange d ∧ litLenElement symbol inp = .ok d := by
  have hlength : litLenElement symbol inp = lengthElement symbol inp := funext fun _ => if_neg (by omega)
  rw [hlength]
  obtain rfl | rfl | h : symbol = 286 ∨ symbol = 287 ∨ 288 ≤ symbol := by omega
  · exact ⟨.ok .llInvalid286, fun _ => rfl, rfl⟩
  · exact ⟨.ok .llInvalid287, fun _ => rfl, rfl⟩
  · exact ⟨.error .litLenSymbolRange, rfl, lengthElement_of_ge h⟩

/-- Symbols 30 and 31 are elements that fail, the symbols above them no elements (30_encoding.md R162, log 13). -/
theorem distElement_outOfRange (h : 30 ≤ symbol) :
    ∃ d, FailsAs .distSymbolRange d ∧ distElement symbol inp = .ok d := by
  obtain rfl | rfl | h : symbol = 30 ∨ symbol = 31 ∨ 32 ≤ symbol := by omega
  · exact ⟨.ok .distInvalid30, fun _ => rfl, rfl⟩
  · exact ⟨.ok .distInvalid31, fun _ => rfl, rfl⟩
  · exact ⟨.error .distSymbolRange, rfl, distElement_of_ge h⟩

theorem clElement_outOfRange (h : 18 < symbol) (hasPrev : Bool) :
    clElement hasPrev symbol inp = .ok (.error .clInvalidCode) := by
  funext r
  rw [clElement, if_neg (by omega), if_neg (by omega), if_neg (by omega), if_neg (by omega)]

end

/-- Settles O56: the code delivers the symbol, whose element fails or is none. -/
theorem outOfRangeSymbolsFailTheStep : Obligations.OutOfRangeSymbolsFailTheStep := by
  refine ⟨fun s symbol code rest hready hbits => ⟨fun hp hm hcode hsymbol => ?litLen, fun hp hcode hsymbol => ?cl⟩,
    fun s i r symbol code rest hlength hcode hsymbol hbits => ?dist⟩
  case litLen =>
    obtain ⟨d, hd, helement⟩ := litLenElement_outOfRange (inp := s.inBytes) hsymbol
    exact step_fails hd (elementContext_sym hp hm) (codedElement_delivers_of_const hcode helement) hready hbits
  case cl =>
    have hd : FailsAs .clInvalidCode (.error .clInvalidCode) := rfl
    have helement := clElement_outOfRange (inp := s.inBytes) hsymbol (s.lensIdx ≠ 0)
    exact step_fails hd (elementContext_dynLens hp) (codedElement_delivers_of_const hcode helement) hready hbits
  case dist =>
    obtain ⟨d, hd, helement⟩ := distElement_outOfRange (inp := s.inBytes) hsymbol
    exact hlength.step_fails hd (codedElement_delivers_of_const hcode helement) hbits

/-! ### Codes with no leaf (43_huffman.md R250, 47_symbols.md R371, R377) -/

/-- Bits that lead out of the tree are rejected with the cause of the tree. -/
theorem codedElement_delivers_of_leadsOut {inp : List Byte} {tree : Trie} {path : List Bool}
    (hpath : tree.leadsOut path = true) (hne : path ≠ []) (invalid : DecodeError)
    (element : Nat → List Byte → BitReader → Decoded) :
    Delivers inp (codedElement tree invalid element inp) path (.error invalid) := by
  intro r rest hready hbits
  cases tree with
  | absent =>
    cases path with
    | nil => exact absurd rfl hne
    | cons b path => cases hpath
  | leaf s => simp at hpath
  | node zero one =>
    obtain ⟨r', hdecode, hrest⟩ := decodeFrom_leadsOut hready hpath hbits
    exact ⟨r', by rw [codedElement, decodeSymbol_node, hdecode, Fetched.andThen_ok], hrest⟩

/-- No node stands where the codes of symbols 286 and 287 would part (43_huffman.md R246). -/
theorem fixedLitLen_leadsOut : fixedLitLen.leadsOut [true, true, false, false, false, true, true] = true := by
  decide +kernel

/-- No node stands where the codes of distance symbols 30 and 31 would part (43_huffman.md R248). -/
theorem fixedDist_leadsOut : fixedDist.leadsOut [true, true, true, true] = true := by decide +kernel

/-- Settles O52: each run of bits leads out of its ROM tree, the second after a whole length element. -/
theorem fixedBlockInvalidCodesFail : Obligations.FixedBlockInvalidCodesFail := by
  intro s rest hp hfixed hm hready
  have hll : litLenTree s = fixedLitLen := if_pos hfixed
  have hdist : distTree s = fixedDist := if_pos hfixed
  refine ⟨fun hbits => ?litLen, fun i bits hlo hhi hencode hbits => ?dist⟩
  case litLen =>
    have hd : FailsAs .litLenInvalidCode (.error .litLenInvalidCode) := rfl
    have hout := hll ▸ fixedLitLen_leadsOut
    exact step_fails hd (elementContext_sym hp hm) (codedElement_delivers_of_leadsOut hout nofun _ _) hready hbits
  case dist =>
    have hd : FailsAs .distInvalidCode (.error .distInvalidCode) := rfl
    have hout := hdist ▸ fixedDist_leadsOut
    rw [List.append_assoc] at hbits
    obtain ⟨r, hdecode, hrest, -⟩ := litLenContext_delivers (hll ▸ hencode) s.br _ hready hbits
    have hlength : LengthRead s i r := ⟨hp, hm, hready, hlo, hhi, hdecode⟩
    exact hlength.step_fails hd (codedElement_delivers_of_leadsOut hout nofun _ _) hrest

end Sys2Proof.Machine

namespace Sys2Proof.Machine

/-! ### Power-on, RESET and START (70_reset_and_hazards.md R500, R501, 49_host_interface.md R401, R402) -/

/-- After reset() the sink holds the output of an attempt that has emitted nothing (44_window.md R278). -/
theorem Sink.fresh_holds (ram : Memory) (out : List Byte) : (Sink.fresh ram out).Holds [] where
  crc_eq := rfl
  total_eq := rfl
  held_eq := rfl
  wp_eq := rfl
  window_eq := nofun

/-- Nothing has been read, emitted or found wrong in the attempt. -/
structure State.Fresh (t : State) : Prop where
  reader : ∃ byte, t.br = BitReader.fresh byte
  sink : ∃ ram out, Memory.wf ram ∧ t.sink = Sink.fresh ram out
  no_pending : t.matchLen = none
  no_failure : t.failKind = .none ∧ t.failCause = .none

/-- A fresh attempt meets the invariant where it waits and where it starts. -/
theorem State.Fresh.inv {t : State} (ht : t.Fresh) (hlen : t.inLength < Config.inputLimit)
    (hp : t.phase = .idle ∨ (t.phase = .hdr ∧ t.input.isSome = true)) : t.Inv := by
  obtain ⟨byte, hbr⟩ := ht.reader
  obtain ⟨ram, out, hram, hsink⟩ := ht.sink
  have hne : t.phase ≠ .failed := by rcases hp with hp | ⟨hp, -⟩ <;> simp [hp]
  have hbound : t.phase.live = true → t.input.isSome = true := by
    rcases hp with hp | ⟨-, hbound⟩
    · simp [hp, Phase.live]
    · exact fun _ => hbound
  have hheader : HeaderInv t := by rcases hp with hp | ⟨hp, -⟩ <;> simp [HeaderInv, hp]
  exact {
    ram_wf := hsink ▸ hram
    no_pending := ht.no_pending
    status := by simpa [StatusInv, hne] using ht.no_failure
    reader := fun _ => ⟨hbr ▸ Nat.zero_le 7, hbr ▸ rfl, hbr ▸ Nat.zero_le _, hlen, hbound⟩
    sink := fun _ => ⟨out, [], by simp [hsink, Sink.fresh], hsink ▸ Sink.fresh_holds ram out⟩
    header := fun _ => hheader }

/-- CL_LEN at power-on, which RESET and START give it again (70_reset_and_hazards.md R501). -/
theorem reset_clLen (i : Fin 19) : State.reset.clLen[i] = 0 := Vector.getElem_replicate i.isLt

/-- Settles O1: each register by name, and the register window offset by offset. -/
theorem powerOnValues : Obligations.PowerOnValues := by
  have hread : ∀ offset, hostRead offset State.reset = 0 := by
    intro offset
    by_cases h : offset ∈ [0x04, 0x08, 0x0C, 0x10]
    · fin_cases h <;> rfl
    · exact hostRead_other h _
  exact ⟨⟨rfl, rfl, rfl, rfl, rfl, rfl⟩, ⟨rfl, rfl, rfl⟩, ⟨rfl, rfl, rfl, rfl⟩,
    ⟨rfl, rfl, rfl, rfl, rfl, rfl, rfl, rfl⟩, reset_clLen, ⟨rfl, rfl, rfl⟩, rfl, hread⟩

/-- Settles O2: at power-on nothing has been read or emitted, and WIN is empty. -/
theorem powerOnMeetsInvariant : Obligations.PowerOnMeetsInvariant :=
  State.Fresh.inv ⟨⟨_, rfl⟩, ⟨_, _, Memory.nil_wf, rfl⟩, rfl, ⟨rfl, rfl⟩⟩ (by decide) (.inl rfl)

/-- 49_host_interface.md R401: a CTRL write with bit 0 set is RESET, whatever bit 1 is. -/
theorem hostWrite_reset (s : State) (launch : List Byte) {value : Word} (hreset : value.getLsbD 0 = true) :
    hostWrite 0 value launch s = .next (resetCommand s) := by
  simp only [hostWrite, hreset, ↓reduceIte]

theorem hostWrite_no_command (s : State) (launch : List Byte) {value : Word} (hreset : value.getLsbD 0 = false)
    (hstart : value.getLsbD 1 = false) : hostWrite 0 value launch s = .next s := by
  simp only [hostWrite, hreset, hstart, Bool.false_eq_true, ↓reduceIte]

theorem startCommand_of_lt_inputLimit (s : State) {launch : List Byte} (hlen : launch.length < Config.inputLimit) :
    startCommand launch s = .next { clearAttempt s with input := some launch, phase := .hdr } :=
  if_neg (Nat.not_le_of_lt hlen)

theorem resetCommand_inv (s : State) : (resetCommand s).Inv := by
  have hfresh : (resetCommand s).Fresh := ⟨⟨_, rfl⟩, ⟨_, _, Memory.ofWrites_wf _, rfl⟩, rfl, ⟨rfl, rfl⟩⟩
  exact hfresh.inv (by decide : 0 < Config.inputLimit) (.inl rfl)

/-- START needs no more of the state before it than WIN's canonical form: it leaves WIN as it was. -/
theorem startCommand_inv {launch : List Byte} {s t : State} (hram : Memory.wf s.sink.ram)
    (h : startCommand launch s = .next t) : t.Inv := by
  obtain ⟨hlen, rfl⟩ := startCommand_eq_next h
  exact State.Fresh.inv ⟨⟨_, rfl⟩, ⟨_, _, hram, rfl⟩, rfl, ⟨rfl, rfl⟩⟩ hlen (.inr ⟨rfl, rfl⟩)

/-- Settles O4: a write is RESET, START, or without effect. -/
theorem hostWriteKeepsInvariant : Obligations.HostWriteKeepsInvariant := by
  intro s t offset value launch hs h
  by_cases hctrl : offset = 0
  · subst hctrl
    cases hreset : value.getLsbD 0
    · cases hstart : value.getLsbD 1
      · cases (hostWrite_no_command s launch hreset hstart).symm.trans h
        exact hs
      · exact startCommand_inv hs.ram_wf ((hostWrite_start s launch hreset hstart).symm.trans h)
    · cases (hostWrite_reset s launch hreset).symm.trans h
      exact resetCommand_inv s
  · cases (hostWrite_other hctrl value launch s).symm.trans h
    exact hs

/-- In HDR with no failure recorded, STATUS shows PHASE alone (10_state.md R63). -/
theorem statusWord_of_hdr {t : State} (hp : t.phase = .hdr) (hkind : t.failKind = .none)
    (hcause : t.failCause = .none) : statusWord t = 0x00000001#32 := by
  simp only [statusWord, hp, hkind, hcause]
  decide

/-- Settles O5: START is the shared assignments of clearAttempt, the bound IN and the entry of HDR. -/
theorem startBeginsFreshAttempt : Obligations.StartBeginsFreshAttempt := by
  intro s value launch hreset hstart hlen
  exact ⟨_, (hostWrite_start s launch hreset hstart).trans (startCommand_of_lt_inputLimit s hlen), rfl, rfl,
    ⟨rfl, rfl, rfl, rfl, rfl⟩, ⟨rfl, rfl, rfl⟩, ⟨rfl, rfl, rfl, rfl⟩, ⟨rfl, rfl, rfl⟩,
    ⟨rfl, rfl, rfl, rfl, rfl, rfl, rfl, rfl⟩, reset_clLen, ⟨rfl, rfl, rfl⟩,
    statusWord_of_hdr rfl rfl rfl⟩

/-- Settles O6: bit 0 decides before bit 1 is looked at. -/
theorem resetReturnsToIdle : Obligations.ResetReturnsToIdle := by
  refine ⟨fun s value launch hreset => ?_, fun s value launch => hostWrite_no_command s launch⟩
  exact ⟨_, hostWrite_reset s launch hreset, rfl, rfl, ⟨rfl, rfl, rfl, rfl, rfl⟩, ⟨rfl, rfl, rfl⟩,
    ⟨rfl, rfl, rfl, rfl, rfl⟩, ⟨rfl, rfl, rfl, rfl, rfl, rfl, rfl, rfl⟩, reset_clLen, ⟨rfl, rfl, rfl⟩⟩

end Sys2Proof.Machine

namespace Sys2Proof.Machine

/-! ### Bits that are no element, and bits that end too early (60_exceptions.md R451, R456) -/

theorem failExhausted_failedWith_of_kept {s u : State} (hout : u.sink.out = s.sink.out) (hinput : u.input = s.input) :
    FailedWith .streamExhausted .none s (failExhausted u) :=
  ⟨rfl, rfl, rfl, hout, hinput⟩

theorem runElement_of_exhausted {c : Context} {s : State} {r : BitReader}
    (h : decodeElement c s.inBytes s.br = .exhausted r) : runElement c s = .next (failExhausted (s.withReader r)) := by
  rw [runElement, h]

/-- An element that fails is the whole step: no distance follows it. -/
theorem step_of_runElement_failed {s t : State} {c : Context} (hc : elementContext s = some c)
    (hrun : runElement c s = .next t) (ht : t.matchLen = none) : step s = .next t := by
  rcases step_of_elementContext hc with hstep | hstep
  · exact hstep.trans hrun
  · rw [hstep, hrun, finishPair_of_no_pending ht]

theorem step_exhausts {s : State} {c : Context} {r : BitReader} (hc : elementContext s = some c)
    (h : decodeElement c s.inBytes s.br = .exhausted r) :
    ∃ t, step s = .next t ∧ FailedWith .streamExhausted .none s t :=
  ⟨_, step_of_runElement_failed hc (runElement_of_exhausted h) rfl, failExhausted_failedWith_of_kept rfl rfl⟩

/-- IN may end in the distance element too (47_symbols.md R378). -/
theorem LengthRead.step_exhausts {s : State} {i : Instr} {r q : BitReader} (hlength : LengthRead s i r)
    (h : decodeElement (.dist (distTree s)) s.inBytes r = .exhausted q) :
    ∃ t, step s = .next t ∧ FailedWith .streamExhausted .none s t :=
  ⟨_, hlength.step_eq.trans (runElement_of_exhausted (s := s.afterLength i r) h),
    failExhausted_failedWith_of_kept rfl rfl⟩

/-! ### The rejections of each tree (60_exceptions.md R451, log 13) -/

/-- The rejections that a context can answer: none but for the coded elements. -/
def CanReject : Context → DecodeError → Prop
  | .clSymbol _ _, e => e = .clInvalidCode
  | .litLen _, e => e = .litLenInvalidCode ∨ e = .litLenSymbolRange
  | .dist _, e => e = .distInvalidCode ∨ e = .distSymbolRange
  | _, _ => False

@[simp] theorem withExtra_ne_error {n : Nat} {mk : BitVec n → Instr} {inp : List Byte} {r q : BitReader}
    {e : DecodeError} : withExtra n mk inp r ≠ .ok (.error e) q := by
  intro h
  obtain ⟨v, -, hv⟩ := Fetched.map_eq_ok h
  cases hv

@[simp] theorem noExtra_ne_error {i : Instr} {r q : BitReader} {e : DecodeError} :
    noExtra i r ≠ .ok (.error e) q := nofun

theorem clElement_error {hasPrev : Bool} {sym : Nat} {inp : List Byte} {r q : BitReader} {e : DecodeError}
    (h : clElement hasPrev sym inp r = .ok (.error e) q) : e = .clInvalidCode := by
  unfold clElement at h
  split_ifs at h <;> simp at h
  exact h.1.symm

theorem litLenElement_error {sym : Nat} {inp : List Byte} {r q : BitReader} {e : DecodeError}
    (h : litLenElement sym inp r = .ok (.error e) q) : e = .litLenSymbolRange := by
  unfold litLenElement lengthElement at h
  split at h
  · simp at h
  · split at h
    case h_33 => cases h; rfl
    all_goals simp at h

theorem distElement_error {sym : Nat} {inp : List Byte} {r q : BitReader} {e : DecodeError}
    (h : distElement sym inp r = .ok (.error e) q) : e = .distSymbolRange := by
  unfold distElement at h
  split at h
  case h_33 => cases h; rfl
  all_goals simp at h

/-- A coded element is rejected for its code, or as its symbol is. -/
theorem codedElement_error {tree : Trie} {invalid e : DecodeError} {element : Nat → List Byte → BitReader → Decoded}
    {inp : List Byte} {r q : BitReader} (h : codedElement tree invalid element inp r = .ok (.error e) q) :
    e = invalid ∨ ∃ sym r1, element sym inp r1 = .ok (.error e) q := by
  obtain ⟨sym, r1, -, helement⟩ := Fetched.andThen_eq_ok h
  cases sym with
  | none => cases helement; exact .inl rfl
  | some sym => exact .inr ⟨sym, r1, helement⟩

theorem decodeElement_error {c : Context} {inp : List Byte} {r q : BitReader} {e : DecodeError}
    (h : decodeElement c inp r = .ok (.error e) q) : CanReject c e := by
  cases c with
  | header | storedByte | clLength =>
    obtain ⟨_, -, hv⟩ := Fetched.map_eq_ok h
    cases hv
  | storedHeader =>
    obtain ⟨_, _, -, h⟩ := Fetched.andThen_eq_ok h
    obtain ⟨_, -, hv⟩ := Fetched.map_eq_ok h
    cases hv
  | dynHeader =>
    obtain ⟨_, _, -, h⟩ := Fetched.andThen_eq_ok h
    obtain ⟨_, _, -, h⟩ := Fetched.andThen_eq_ok h
    obtain ⟨_, -, hv⟩ := Fetched.map_eq_ok h
    cases hv
  | clSymbol tree hasPrev =>
    rcases codedElement_error h with rfl | ⟨_, _, helement⟩
    · rfl
    · exact clElement_error helement
  | litLen tree => exact (codedElement_error h).imp_right fun ⟨_, _, helement⟩ => litLenElement_error helement
  | dist tree => exact (codedElement_error h).imp_right fun ⟨_, _, helement⟩ => distElement_error helement

theorem step_rejects {s : State} {c : Context} {e : DecodeError} {r : BitReader} (hc : elementContext s = some c)
    (h : decodeElement c s.inBytes s.br = .ok (.error e) r) :
    ∃ t, step s = .next t ∧ FailedWith .structuralViolation (decodeErrorCause e) s t :=
  ⟨_, step_of_runElement_failed hc (runElement_of_failsAs (d := .error e) rfl h) rfl,
    failStructural_failedWith_of_kept _ rfl rfl⟩

/-- Settles O14: bits that lead out of a tree are rejected, and a rejection or an exhausted fetch is the whole step. -/
theorem undecodableBitsFailTheAttempt : Obligations.UndecodableBitsFailTheAttempt := by
  refine ⟨fun s path rest hready hbits => ⟨fun hp hpath hne => ?cl, fun hp hm hpath hne => ?litLen⟩,
    fun s i r path rest hlength hbits hpath hne => ?dist,
    fun s c hc => ⟨fun e r h => ?rejected, fun r h => step_exhausts hc h⟩,
    fun s i r q hlength h => hlength.step_exhausts h⟩
  case cl =>
    have hd : FailsAs .clInvalidCode (.error .clInvalidCode) := rfl
    exact step_fails hd (elementContext_dynLens hp) (codedElement_delivers_of_leadsOut hpath hne _ _) hready hbits
  case litLen =>
    have hd : FailsAs .litLenInvalidCode (.error .litLenInvalidCode) := rfl
    exact step_fails hd (elementContext_sym hp hm) (codedElement_delivers_of_leadsOut hpath hne _ _) hready hbits
  case dist =>
    have hd : FailsAs .distInvalidCode (.error .distInvalidCode) := rfl
    exact hlength.step_fails hd (codedElement_delivers_of_leadsOut hpath hne _ _) hbits
  case rejected =>
    obtain ⟨t, hstep, hfailed⟩ := step_rejects hc h
    refine ⟨t, _, hstep, hfailed, ?_⟩
    have hrejects := decodeElement_error h
    cases c with
    | clSymbol tree hasPrev => exact congrArg decodeErrorCause hrejects
    | litLen tree => exact hrejects.imp (congrArg decodeErrorCause) (congrArg decodeErrorCause)
    | dist tree => exact hrejects.imp (congrArg decodeErrorCause) (congrArg decodeErrorCause)
    | header | storedHeader | storedByte | dynHeader | clLength => exact hrejects

end Sys2Proof.Machine

namespace Sys2Proof.Machine

/-! ### What a failing step records (60_exceptions.md R451, R454) -/

/-- If `t` has failed and `s` had not, then `t` records a kind and a cause that go together, and nothing was emitted. -/
def FailsCleanly (s t : State) : Prop :=
  t.phase = .failed → s.phase = .failed ∨ (StatusInv t ∧ t.sink.out = s.sink.out)

theorem FailsCleanly.of_phase_ne {s t : State} (h : t.phase ≠ .failed) : FailsCleanly s t := fun ht => absurd ht h

theorem FailsCleanly.of_phase_eq {s t : State} (h : t.phase = s.phase) : FailsCleanly s t := fun ht => .inl (h ▸ ht)

theorem failStructural_failsCleanly {cause : FailCause} (hcause : cause ≠ .none) {s u : State}
    (hout : u.sink.out = s.sink.out) : FailsCleanly s (failStructural cause u) :=
  fun _ => .inr ⟨(failStructural_inv cause hcause u).status, hout⟩

theorem failExhausted_failsCleanly {s u : State} (hout : u.sink.out = s.sink.out) : FailsCleanly s (failExhausted u) :=
  fun _ => .inr ⟨(failExhausted_inv u).status, hout⟩

theorem endBlock_phase_ne_failed (s : State) : (endBlock s).phase ≠ .failed := by
  rw [endBlock_phase]
  split <;> exact nofun

theorem copyMatch_failsCleanly (code e : Nat) (s : State) : NextHas (FailsCleanly s) (copyMatch code e s) := by
  rcases copyMatch_cases code e s with ⟨-, h⟩ | ⟨_, -, -, h⟩ | ⟨_, -, -, h⟩ <;> rw [h]
  · exact nextHas_fault _ _
  · exact nextHas_next.2 (failStructural_failsCleanly (by decide) rfl)
  · exact nextHas_next.2 (.of_phase_eq rfl)

theorem storeLengths_failsCleanly (rep : Nat) (v : BitVec 4) (s : State) :
    NextHas (FailsCleanly s) (storeLengths rep v s) := by
  rcases storeLengths_cases rep v s with ⟨-, h⟩ | ⟨-, h⟩ <;> rw [h] <;> refine nextHas_next.2 ?_
  · exact failStructural_failsCleanly (by decide) rfl
  · by_cases hend : s.lensIdx.toNat + rep = lensTotal s.hlit s.hdist
    · exact .of_phase_ne (by simp [hend])
    · exact .of_phase_eq (if_neg hend)

theorem execStoredHdr_failsCleanly (len nlen : BitVec 16) (s : State) :
    NextHas (FailsCleanly s) (execStoredHdr len nlen s) := by
  unfold execStoredHdr
  dsimp only
  split_ifs <;> refine nextHas_next.2 ?_
  · exact failStructural_failsCleanly (by decide) rfl
  · exact .of_phase_ne (endBlock_phase_ne_failed _)
  · exact .of_phase_ne nofun

theorem execStoredByte_failsCleanly (b : Byte) (s : State) : NextHas (FailsCleanly s) (execStoredByte b s) := by
  unfold execStoredByte
  dsimp only
  split_ifs <;> refine nextHas_next.2 ?_
  · exact .of_phase_ne (endBlock_phase_ne_failed _)
  · exact .of_phase_eq rfl

theorem execDynHdr_failsCleanly (hlit hdist : BitVec 5) (hclen : BitVec 4) (s : State) :
    NextHas (FailsCleanly s) (execDynHdr hlit hdist hclen s) := by
  rcases Nat.lt_or_ge 29 hlit.toNat with hlarge | hlegal
  · exact execDynHdr_of_large hlarge hdist hclen s ▸ nextHas_next.2 (failStructural_failsCleanly (by decide) rfl)
  · exact execDynHdr_of_legal hlegal hdist hclen s ▸ nextHas_next.2 (.of_phase_ne nofun)

theorem execClLength_failsCleanly (v : BitVec 3) (s : State) : NextHas (FailsCleanly s) (execClLength v s) := by
  rw [execClLength_eq]
  refine nextHas_next.2 ?_
  by_cases hlast : (s.clIdx + 1).toNat = codeLengthCount s.hclen
  · exact .of_phase_ne ((if_pos hlast).trans_ne nofun)
  · exact .of_phase_eq (if_neg hlast)

theorem execClRepPrev_failsCleanly (e : BitVec 2) (s : State) : NextHas (FailsCleanly s) (execClRepPrev e s) := by
  by_cases hfirst : s.lensIdx = 0
  · exact execClRepPrev_of_first hfirst e ▸ nextHas_next.2 (failStructural_failsCleanly (by decide) rfl)
  · exact execClRepPrev_of_previous hfirst e ▸ storeLengths_failsCleanly _ _ s

/-- Every check of a meaning comes before the element emits anything. -/
theorem exec_failsCleanly (i : Instr) (s : State) : NextHas (FailsCleanly s) (exec i s) := by
  cases i
  case blockStored | blockFixed | blockDynamic => exact nextHas_next.2 (.of_phase_ne nofun)
  case blockReserved | llInvalid286 | llInvalid287 | distInvalid30 | distInvalid31 =>
    exact nextHas_next.2 (failStructural_failsCleanly (by decide) rfl)
  case storedHdr len nlen => exact execStoredHdr_failsCleanly len nlen s
  case storedByte b => exact execStoredByte_failsCleanly b s
  case dynHdr hlit hdist hclen => exact execDynHdr_failsCleanly hlit hdist hclen s
  case clLength len => exact execClLength_failsCleanly len s
  case clRepPrev extra => exact execClRepPrev_failsCleanly extra s
  case clLen | clRepZeroShort | clRepZeroLong => exact storeLengths_failsCleanly _ _ s
  case eob => exact nextHas_next.2 (.of_phase_ne (endBlock_phase_ne_failed s))
  case lit | len257 | len258 | len259 | len260 | len261 | len262 | len263 | len264 | len265 | len266 | len267 |
      len268 | len269 | len270 | len271 | len272 | len273 | len274 | len275 | len276 | len277 | len278 | len279 |
      len280 | len281 | len282 | len283 | len284 | len285 =>
    exact nextHas_next.2 (.of_phase_eq rfl)
  all_goals exact copyMatch_failsCleanly _ _ s

theorem runElement_failsCleanly (c : Context) (s : State) : NextHas (FailsCleanly s) (runElement c s) := by
  rcases runElement_cases c s with ⟨i, r, -, h⟩ | ⟨e, r, -, h⟩ | ⟨r, -, h⟩ <;> rw [h]
  · exact exec_failsCleanly i (s.withReader r)
  · exact nextHas_next.2 (failStructural_failsCleanly (decodeErrorCause_ne_none e) rfl)
  · exact nextHas_next.2 (failExhausted_failsCleanly rfl)

theorem stepClBuild_failsCleanly (s : State) : FailsCleanly s (stepClBuild s) := by
  unfold stepClBuild
  split
  · exact failStructural_failsCleanly (by decide) rfl
  · exact .of_phase_ne nofun

theorem stepBuild_failsCleanly (s : State) : FailsCleanly s (stepBuild s) := by
  unfold stepBuild
  split
  · exact failStructural_failsCleanly (by decide) rfl
  · split
    · exact failStructural_failsCleanly (by decide) rfl
    · exact .of_phase_ne nofun

/-- A literal/length element that leaves a length pending is a length code: it has emitted nothing and left PHASE alone
(47_symbols.md R363). -/
theorem runElement_litLen_pending {tree : Trie} {s u : State} (hm : s.matchLen = none)
    (h : runElement (.litLen tree) s = .next u) (hu : u.matchLen.isSome = true) :
    u.phase = s.phase ∧ u.sink = s.sink := by
  rcases runElement_cases (.litLen tree) s with ⟨i, r, hd, hrun⟩ | ⟨e, r, -, hrun⟩ | ⟨r, -, hrun⟩
  · have hll : i.format = .ll := decodeElement_format hd
    rw [hrun] at h
    by_cases hcode : 257 ≤ i.symbol ∧ i.symbol ≤ 285
    · cases (exec_eq_setMatchLength hll hcode.1 hcode.2 _).symm.trans h
      exact ⟨rfl, rfl⟩
    · obtain ⟨t, ht, hnone⟩ := exec_keeps_no_pending hll hcode (s := s.withReader r) hm
      cases ht.symm.trans h
      simp [hnone] at hu
  · cases hrun.symm.trans h
    cases hu
  · cases hrun.symm.trans h
    cases hu

/-- A pair fails in its length element or in its distance element, before anything is copied. -/
theorem step_sym_failsCleanly {s : State} (hp : s.phase = .sym) (hm : s.matchLen = none) :
    NextHas (FailsCleanly s) (step s) := by
  intro t h
  rw [step_sym hp hm] at h
  rcases finishPair_cases h with hrun | ⟨u, hrun, hu, hdist⟩
  · exact runElement_failsCleanly _ s t hrun
  · obtain ⟨hphase, hsink⟩ := runElement_litLen_pending hm hrun hu
    have hfails := runElement_failsCleanly _ u t hdist
    rwa [FailsCleanly, hphase, hsink] at hfails

/-- Only a live phase has a step (45_block_fsm.md R300). -/
theorem live_of_step {s t : State} (h : step s = .next t) : s.phase.live = true := by
  rcases step_cases h with ⟨hp, -⟩ | ⟨hp, -⟩ | ⟨c, hc, -⟩
  · rw [hp]; rfl
  · rw [hp]; rfl
  · exact live_of_elementContext hc

theorem step_failsCleanly {s : State} (hm : s.matchLen = none) : NextHas (FailsCleanly s) (step s) := by
  intro t h
  by_cases hsym : s.phase = .sym
  · exact step_sym_failsCleanly hsym hm t h
  · rcases step_cases h with ⟨-, rfl⟩ | ⟨-, rfl⟩ | ⟨c, hc, -⟩
    · exact stepClBuild_failsCleanly s
    · exact stepBuild_failsCleanly s
    · exact runElement_failsCleanly c s t (step_element hsym hc ▸ h)

/-- Settles O15: a build, an element and a pair fail before they emit, and they start in a live phase. -/
theorem failingStepRecordsCause : Obligations.FailingStepRecordsCause := by
  intro s t hm h hfailed
  have hlive : s.phase.live = true := live_of_step h
  have hne : s.phase ≠ .failed := fun hp => by simp [hp, Phase.live] at hlive
  exact ⟨hlive, (step_failsCleanly hm t h hfailed).resolve_left hne⟩

end Sys2Proof.Machine

namespace Sys2Proof.Machine

/-! ### An element cut short (60_exceptions.md R456)

The counterpart of `Delivers`: what the same fetches answer where IN ends inside their bits. -/

/-- From every ready reader whose bits to come are `bits` without a last part `missing`, `f` is exhausted. -/
def ExhaustsInside {α : Type} (inp : List Byte) (f : BitReader → Fetched α) (bits : List Bool) : Prop :=
  ∀ (r : BitReader) (missing : List Bool), ReaderReady inp r → upcoming inp r ++ missing = bits → missing ≠ [] →
    ∃ q, f r = .exhausted q

section
variable {inp : List Byte}

/-- From no bits nothing is missing. -/
theorem exhaustsInside_nil {α : Type} (f : BitReader → Fetched α) : ExhaustsInside inp f [] :=
  fun _ _ _ hbits hmissing => absurd (List.append_eq_nil_iff.1 hbits).2 hmissing

theorem ExhaustsInside.map {α β : Type} {f : BitReader → Fetched α} {bits : List Bool}
    (hf : ExhaustsInside inp f bits) (g : α → β) : ExhaustsInside inp (fun r => (f r).map g) bits := by
  intro r missing hready hbits hmissing
  obtain ⟨q, hq⟩ := hf r missing hready hbits hmissing
  exact ⟨q, by simp only [hq, Fetched.map_exhausted]⟩

/-- IN ends inside the bits of the first fetch, or where the second has begun. -/
theorem ExhaustsInside.andThen {α β : Type} {f : BitReader → Fetched α} {k : α → BitReader → Fetched β}
    {bits more : List Bool} {v : α} (hf : ExhaustsInside inp f bits) (hdelivers : Delivers inp f bits v)
    (hk : ExhaustsInside inp (k v) more) : ExhaustsInside inp (fun r => (f r).andThen k) (bits ++ more) := by
  intro r missing hready hbits hmissing
  have second : ∀ rest, upcoming inp r = bits ++ rest → rest ++ missing = more →
      ∃ q, (f r).andThen k = .exhausted q := by
    intro rest hfirst hrest
    obtain ⟨r1, h1, hu1, hready1⟩ := hdelivers r rest hready hfirst
    obtain ⟨q, hq⟩ := hk r1 missing hready1 (hu1.symm ▸ hrest) hmissing
    exact ⟨q, by rw [h1, Fetched.andThen_ok, hq]⟩
  rcases List.append_eq_append_iff.1 hbits with ⟨gap, hfirst, hall⟩ | ⟨rest, hfirst, hrest⟩
  · by_cases hnil : gap = []
    · subst hnil
      exact second [] (by simpa using hfirst.symm) hall
    · obtain ⟨q, hq⟩ := hf r gap hready hfirst.symm hnil
      exact ⟨q, by simp only [hq, Fetched.andThen_exhausted]⟩
  · exact second rest hfirst hrest.symm

/-- 41_bitreader.md R203: a field is read as a whole or not at all. -/
theorem fetchBits_exhaustsInside {n : Nat} (v : BitVec n) : ExhaustsInside inp (fetchBits inp n) (fieldBits v) := by
  intro r missing hready hbits hmissing
  have hshort : (upcoming inp r).length < n := by
    have hlength := congrArg List.length hbits
    rw [List.length_append, fieldBits_length] at hlength
    have := List.length_pos_of_ne_nil hmissing
    omega
  obtain ⟨q, hq, -⟩ := shortFetchExhausts n inp r hready hshort
  exact ⟨q, hq⟩

theorem fetchBit_exhaustsInside (b : Bool) : ExhaustsInside inp (fetchBit inp) [b] := by
  intro r missing hready hbits hmissing
  have hnone : upcoming inp r = [] := by
    obtain ⟨h, -⟩ | ⟨-, h⟩ := List.append_eq_singleton_iff.1 hbits
    · exact h
    · exact absurd h hmissing
  exact ⟨_, fetchBit_of_no_bits hready.not_exhausted hready.cnt_le hnone⟩

theorem decodeFrom_exhaustsInside {t : Trie} {code : List Bool} {symbol : Nat} (h : t.walk code = .leaf symbol) :
    ExhaustsInside inp (decodeFrom inp t) code := by
  induction code generalizing t with
  | nil => exact exhaustsInside_nil _
  | cons b code ih =>
    cases t with
    | absent | leaf s => simp at h
    | node zero one =>
      rw [funext (decodeFrom_node inp zero one)]
      exact (fetchBit_exhaustsInside b).andThen (k := fun b => decodeFrom inp (Trie.child b (.node zero one)))
        (fetchBit_delivers b) (ih h)

theorem decodeSymbol_exhaustsInside {t : Trie} {code : List Bool} {symbol : Nat} (h : t.codeOf symbol = some code) :
    ExhaustsInside inp (decodeSymbol inp t) code := by
  cases t with
  | absent | leaf s => cases h
  | node zero one =>
    rw [funext (decodeSymbol_node inp zero one)]
    exact decodeFrom_exhaustsInside (Trie.walk_codeBelow h)

/-! ### Coded elements cut short -/

theorem withExtra_exhaustsInside {n : Nat} (mk : BitVec n → Instr) (e : BitVec n) :
    ExhaustsInside inp (withExtra n mk inp) (fieldBits e) :=
  (fetchBits_exhaustsInside e).map _

theorem codedElement_exhaustsInside {tree : Trie} {invalid : DecodeError}
    {element : Nat → List Byte → BitReader → Decoded} {symbol : Nat} {code extra : List Bool}
    (hcode : tree.codeOf symbol = some code) (helement : ExhaustsInside inp (element symbol inp) extra) :
    ExhaustsInside inp (codedElement tree invalid element inp) (code ++ extra) :=
  (decodeSymbol_exhaustsInside hcode).andThen (decodeSymbol_delivers hcode) helement

theorem clElement_exhaustsInside {hasPrev : Bool} {i : Instr} (hcls : i.format = .cls)
    (hprev : ¬ (i.symbol = 16 ∧ hasPrev = false)) :
    ExhaustsInside inp (clElement hasPrev i.symbol inp) i.extraBits := by
  cases i <;> cases hcls
  case clLen len => exact exhaustsInside_nil _
  case clRepPrev e =>
    have htrue : hasPrev = true := by simpa [Instr.symbol] using hprev
    exact htrue ▸ withExtra_exhaustsInside .clRepPrev e
  case clRepZeroShort e => exact withExtra_exhaustsInside .clRepZeroShort e
  case clRepZeroLong e => exact withExtra_exhaustsInside .clRepZeroLong e

theorem litLenElement_exhaustsInside {i : Instr} (hll : i.format = .ll) :
    ExhaustsInside inp (litLenElement i.symbol inp) i.extraBits := by
  cases i <;> cases hll
  case len265 e | len266 e | len267 e | len268 e | len269 e | len270 e | len271 e | len272 e | len273 e | len274 e |
      len275 e | len276 e | len277 e | len278 e | len279 e | len280 e | len281 e | len282 e | len283 e | len284 e =>
    exact withExtra_exhaustsInside _ e
  all_goals exact exhaustsInside_nil _

theorem distElement_exhaustsInside {i : Instr} (hd : i.format = .d) :
    ExhaustsInside inp (distElement i.symbol inp) i.extraBits := by
  cases i <;> cases hd
  case dist0 | dist1 | dist2 | dist3 | distInvalid30 | distInvalid31 => exact exhaustsInside_nil _
  all_goals exact withExtra_exhaustsInside _ _

theorem clSymbolContext_exhaustsInside {tree : Trie} {hasPrev : Bool} {i : Instr} {bits : List Bool}
    (h : encode (.clSymbol tree hasPrev) i = some bits) :
    ExhaustsInside inp (decodeElement (.clSymbol tree hasPrev) inp) bits := by
  have hcls : i.format = .cls := encode_format h
  by_cases hprev : i.symbol = 16 ∧ hasPrev = false
  · obtain ⟨h16, rfl⟩ := hprev
    rw [encode_clSymbol_noPrevious hcls h16] at h
    obtain ⟨-, hcode⟩ := Option.ite_none_right_eq_some.1 h
    rw [← List.append_nil bits]
    exact codedElement_exhaustsInside hcode (exhaustsInside_nil _)
  · rw [encode_clSymbol hcls hprev] at h
    obtain ⟨code, hcode, rfl⟩ := encodeCoded_eq_some h
    exact codedElement_exhaustsInside hcode (clElement_exhaustsInside hcls hprev)

theorem litLenContext_exhaustsInside {tree : Trie} {i : Instr} {bits : List Bool}
    (h : encode (.litLen tree) i = some bits) : ExhaustsInside inp (decodeElement (.litLen tree) inp) bits := by
  have hll : i.format = .ll := encode_format h
  obtain ⟨code, hcode, rfl⟩ := encodeCoded_eq_some (encode_litLen hll ▸ h)
  exact codedElement_exhaustsInside hcode (litLenElement_exhaustsInside hll)

theorem distContext_exhaustsInside {tree : Trie} {i : Instr} {bits : List Bool}
    (h : encode (.dist tree) i = some bits) : ExhaustsInside inp (decodeElement (.dist tree) inp) bits := by
  have hd : i.format = .d := encode_format h
  obtain ⟨code, hcode, rfl⟩ := encodeCoded_eq_some (encode_dist hd ▸ h)
  exact codedElement_exhaustsInside hcode (distElement_exhaustsInside hd)

/-! ### Elements of a fixed format cut short -/

theorem headerContext_exhaustsInside {i : Instr} {bits : List Bool} (h : encode .header i = some bits) :
    ExhaustsInside inp (decodeElement .header inp) bits := by
  have hbh : i.format = .bh := encode_format h
  obtain ⟨v, rfl, hv⟩ := headerElement_of_format hbh
  obtain rfl : fieldBits v = bits := by simpa [encode, hbh, Context.format, hv] using h
  exact (fetchBits_exhaustsInside v).map _

theorem storedByteContext_exhaustsInside {i : Instr} {bits : List Bool} (h : encode .storedByte i = some bits) :
    ExhaustsInside inp (decodeElement .storedByte inp) bits := by
  obtain ⟨b, rfl⟩ := storedByte_of_format (encode_format h)
  cases h
  exact (fetchBits_exhaustsInside b).map _

theorem clLengthContext_exhaustsInside {i : Instr} {bits : List Bool} (h : encode .clLength i = some bits) :
    ExhaustsInside inp (decodeElement .clLength inp) bits := by
  obtain ⟨len, rfl⟩ := clLength_of_format (encode_format h)
  cases h
  exact (fetchBits_exhaustsInside len).map _

theorem dynHeaderContext_exhaustsInside {i : Instr} {bits : List Bool} (h : encode .dynHeader i = some bits) :
    ExhaustsInside inp (decodeElement .dynHeader inp) bits := by
  obtain ⟨hlit, hdist, hclen, rfl⟩ := dynHdr_of_format (encode_format h)
  cases h
  rw [List.append_assoc]
  exact (fetchBits_exhaustsInside hlit).andThen (fetchBits_delivers hlit)
    ((fetchBits_exhaustsInside hdist).andThen (fetchBits_delivers hdist) ((fetchBits_exhaustsInside hclen).map _))

/-- A stored header begins at the byte boundary (20_memory.md R110). -/
theorem storedFields_exhaustsInside (len nlen : BitVec 16) :
    ExhaustsInside inp (fun r => (fetchBits inp 16 r).andThen fun l r1 =>
      (fetchBits inp 16 r1).map fun n => (.ok (.storedHdr l n) : Except DecodeError Instr))
      (fieldBits len ++ fieldBits nlen) :=
  (fetchBits_exhaustsInside len).andThen (fetchBits_delivers len) ((fetchBits_exhaustsInside nlen).map _)

/-- What is left of IN is a proper beginning of the element's encoding. -/
theorem decodeElement_of_cut {c : Context} {i : Instr} {bits missing : List Bool} (henc : encode c i = some bits)
    {r : BitReader} (hready : ReaderReady inp r) (hbits : upcoming inp (c.entry r) ++ missing = bits)
    (hmissing : missing ≠ []) : ∃ q, decodeElement c inp r = .exhausted q := by
  cases c with
  | header => exact headerContext_exhaustsInside henc r missing hready hbits hmissing
  | storedHeader =>
    obtain ⟨len, nlen, rfl⟩ := storedHdr_of_format (encode_format henc)
    cases henc
    exact storedFields_exhaustsInside len nlen _ missing hready.moveToByteBoundary hbits hmissing
  | storedByte => exact storedByteContext_exhaustsInside henc r missing hready hbits hmissing
  | dynHeader => exact dynHeaderContext_exhaustsInside henc r missing hready hbits hmissing
  | clLength => exact clLengthContext_exhaustsInside henc r missing hready hbits hmissing
  | clSymbol tree hasPrev => exact clSymbolContext_exhaustsInside henc r missing hready hbits hmissing
  | litLen tree => exact litLenContext_exhaustsInside henc r missing hready hbits hmissing
  | dist tree => exact distContext_exhaustsInside henc r missing hready hbits hmissing

end

/-- A proper beginning leaves something out. -/
theorem exists_missing_of_prefix {bits whole : List Bool} (hprefix : bits <+: whole) (hne : bits ≠ whole) :
    ∃ missing, bits ++ missing = whole ∧ missing ≠ [] := by
  obtain ⟨missing, rfl⟩ := hprefix
  exact ⟨missing, rfl, fun hnil => hne (by rw [hnil, List.append_nil])⟩

/-- Settles O55: the fetch that needs the first missing bit is exhausted, and its failure is the step's. -/
theorem truncatedElementExhausts : Obligations.TruncatedElementExhausts := by
  refine ⟨fun s c i bits hc hready henc hprefix hne => ?_, fun s i j r bits hlength henc hprefix hne => ?_⟩
  all_goals obtain ⟨missing, hbits, hmissing⟩ := exists_missing_of_prefix hprefix hne
  · obtain ⟨q, hq⟩ := decodeElement_of_cut henc hready hbits hmissing
    exact step_exhausts hc hq
  · obtain ⟨q, hq⟩ := decodeElement_of_cut henc hlength.ready_after hbits hmissing
    exact hlength.step_exhausts hq

end Sys2Proof.Machine

namespace Sys2Proof.Machine

/-! ### Reading the header of a member (49_host_interface.md R410 to R420) -/

theorem takeBytes_eq_some {h bytes : List Byte} {q n q' : Nat} :
    takeBytes h q n = some (bytes, q') ↔ q + n ≤ h.length ∧ (h.drop q).take n = bytes ∧ q + n = q' := by
  simp [takeBytes]

theorem leNat_singleton (b : Byte) : leNat [b] = b.toNat := rfl

/-- A one-byte field is the byte at the cursor. -/
theorem exists_byte_of_takeBytes {h bytes : List Byte} {q q' : Nat} (ht : takeBytes h q 1 = some (bytes, q')) :
    ∃ b, h[q]? = some b ∧ leNat bytes = b.toNat ∧ q' = q + 1 := by
  obtain ⟨hle, rfl, rfl⟩ := takeBytes_eq_some.1 ht
  have hlt : q < h.length := hle
  refine ⟨h[q], List.getElem?_eq_getElem hlt, ?_, rfl⟩
  rw [List.drop_eq_getElem_cons hlt, List.take_succ_cons, List.take_zero, leNat_singleton]

/-- FEXTRA (49_host_interface.md R416). -/
def skipExtra (xlenBytes : Nat) (h : List Byte) (flg : Byte) (q : Nat) : Option Nat :=
  if flagSet flg 2 then (takeBytes h q xlenBytes).bind fun len => (takeBytes h len.2 (leNat len.1)).map Prod.snd
  else some q

/-- FNAME and FCOMMENT, at FLG bits 3 and 4 (49_host_interface.md R417, R418). -/
def skipText (i : Nat) (h : List Byte) (flg : Byte) (q : Nat) : Option Nat :=
  if flagSet flg i then skipString h q else some q

/-- FHCRC (49_host_interface.md R419). -/
def skipHeaderCrc (h : List Byte) (flg : Byte) (q : Nat) : Option Nat :=
  if flagSet flg 1 then (takeBytes h q 2).map Prod.snd else some q

/-- The optional fields one after another. -/
theorem skipOptional_eq (xlenBytes : Nat) (h : List Byte) (flg : Byte) (q : Nat) :
    skipOptional xlenBytes h flg q =
      (skipExtra xlenBytes h flg q).bind fun q =>
        (skipText 3 h flg q).bind fun q => (skipText 4 h flg q).bind (skipHeaderCrc h flg) := by
  unfold skipOptional skipExtra skipText skipHeaderCrc
  cases flagSet flg 2 <;> cases flagSet flg 3 <;> cases flagSet flg 4 <;>
    simp [Option.map_eq_bind, Option.bind_assoc]

theorem le_of_takeBytes {h : List Byte} {q n q' : Nat} (ht : (takeBytes h q n).map Prod.snd = some q') : q ≤ q' := by
  obtain ⟨⟨bytes, q1⟩, hfield, rfl⟩ := Option.map_eq_some_iff.1 ht
  exact (takeBytes_eq_some.1 hfield).2.2 ▸ Nat.le_add_right q n

theorem le_of_skipExtra {xlenBytes : Nat} {h : List Byte} {flg : Byte} {q q' : Nat}
    (hs : skipExtra xlenBytes h flg q = some q') : q ≤ q' := by
  unfold skipExtra at hs
  split at hs
  · obtain ⟨len, hlen, hfield⟩ := Option.bind_eq_some_iff.1 hs
    exact (le_of_takeBytes (by rw [hlen, Option.map_some])).trans (le_of_takeBytes hfield)
  · cases hs; exact le_rfl

theorem le_of_skipText {i : Nat} {h : List Byte} {flg : Byte} {q q' : Nat} (hs : skipText i h flg q = some q') :
    q ≤ q' := by
  unfold skipText skipString at hs
  split at hs
  · obtain ⟨n, -, rfl⟩ := Option.map_eq_some_iff.1 hs
    omega
  · cases hs; exact le_rfl

theorem le_of_skipHeaderCrc {h : List Byte} {flg : Byte} {q q' : Nat} (hs : skipHeaderCrc h flg q = some q') :
    q ≤ q' := by
  unfold skipHeaderCrc at hs
  split at hs
  · exact le_of_takeBytes hs
  · cases hs; exact le_rfl

/-- No optional field moves the cursor back. -/
theorem le_of_skipOptional {xlenBytes : Nat} {h : List Byte} {flg : Byte} {q q' : Nat}
    (hs : skipOptional xlenBytes h flg q = some q') : q ≤ q' := by
  rw [skipOptional_eq] at hs
  obtain ⟨q1, hextra, hs⟩ := Option.bind_eq_some_iff.1 hs
  obtain ⟨q2, hname, hs⟩ := Option.bind_eq_some_iff.1 hs
  obtain ⟨q3, hcomment, hcrc⟩ := Option.bind_eq_some_iff.1 hs
  calc q ≤ q1 := le_of_skipExtra hextra
    _ ≤ q2 := le_of_skipText hname
    _ ≤ q3 := le_of_skipText hcomment
    _ ≤ q' := le_of_skipHeaderCrc hcrc

/-- What a header that parses has passed (49_host_interface.md R411 to R420). -/
structure HeaderParsed (h : List Byte) (p q : Nat) : Prop where
  method : h[p + 2]? = some 8#8
  flags : ∃ flg, h[p + 3]? = some flg ∧ flg.toNat / 32 = 0
  os : ∃ os, h[p + 9]? = some os ∧ knownOs os = true
  begins : p + 10 ≤ q
  ends : q < h.length

theorem headerParsed_of_parseHeader {h : List Byte} {p q xlenBytes : Nat} (hp : parseHeader h p xlenBytes = .ok q) :
    HeaderParsed h p q := by
  unfold parseHeader at hp
  split at hp
  · cases hp
  next cm q1 hcm =>
  split at hp
  · cases hp
  next hmethod =>
  split at hp
  · cases hp
  next flgBytes q2 hflg =>
  dsimp only at hp
  split at hp
  · cases hp
  next hflags =>
  split at hp
  · cases hp
  next mtime q3 hmtime =>
  split at hp
  · cases hp
  next osBytes q4 hos =>
  split at hp
  · cases hp
  next hknown =>
  split at hp
  · cases hp
  next q5 hoptional =>
  split at hp
  next hlt =>
    cases hp
    obtain ⟨b, hb, hbval, rfl⟩ := exists_byte_of_takeBytes hcm
    obtain ⟨flg, hflgByte, hflgval, rfl⟩ := exists_byte_of_takeBytes hflg
    obtain ⟨-, -, rfl⟩ := takeBytes_eq_some.1 hmtime
    obtain ⟨os, hosByte, hosval, rfl⟩ := exists_byte_of_takeBytes hos
    rw [hbval, not_not] at hmethod
    rw [hflgval, BitVec.ofNat_toNat, BitVec.setWidth_eq, not_not] at hflags
    rw [hosval, BitVec.ofNat_toNat, BitVec.setWidth_eq, Bool.not_eq_false] at hknown
    exact ⟨hb.trans (congrArg some (BitVec.eq_of_toNat_eq hmethod)), ⟨flg, hflgByte, hflags⟩,
      ⟨os, hosByte, hknown⟩, le_of_skipOptional hoptional, hlt⟩
  · cases hp

/-! ### A valid member (49_host_interface.md R421 to R424) -/

theorem attemptResult_eq_valid {t : State} {total crc consumed : Word}
    (ht : attemptResult t = .valid total crc consumed) :
    t.phase = .done ∧ total = t.sink.total ∧ crc = t.sink.crc ∧ consumed = t.br.consumed := by
  unfold attemptResult at ht
  split at ht
  next hdone => cases ht; exact ⟨hdone, rfl, rfl, rfl⟩
  · cases ht
  · cases ht

/-- What the footer at `f` has passed (49_host_interface.md R422 to R424). -/
structure FooterPassed (h : List Byte) (p f : Nat) (total crc : Word) (v : MemberVerdict) : Prop where
  headerValid : v.headerValid = true
  inside : f + 8 ≤ h.length
  length_eq : v.length = f + 8 - p
  crc_eq : leNat ((h.drop f).take 4) = crc.toNat
  total_eq : leNat ((h.drop (f + 4)).take 4) = total.toNat

theorem checkFooter_fileValid {h : List Byte} {p f : Nat} {total crc : Word}
    (hv : (checkFooter h p f total crc).fileValid = true) :
    FooterPassed h p f total crc (checkFooter h p f total crc) := by
  unfold checkFooter at hv ⊢
  split at hv
  · cases hv
  next footer q hfooter =>
  split at hv
  next hmatch =>
    obtain ⟨hinside, rfl, rfl⟩ := takeBytes_eq_some.1 hfooter
    obtain ⟨hcrc, htotal⟩ := hmatch
    rw [if_pos ⟨hcrc, htotal⟩]
    rw [List.take_take] at hcrc
    rw [List.drop_take, List.drop_drop] at htotal
    exact ⟨rfl, hinside, rfl, hcrc, htotal⟩
  · cases hv

/-- The attempt of a valid member ended in DONE, and its footer passed the checks. -/
theorem validateMember_fileValid {h : List Byte} {p xlenBytes : Nat} {blk blk' : State} {v : MemberVerdict}
    (hv : validateMember h p blk xlenBytes = .ok (v, blk')) (hfile : v.fileValid = true) :
    ∃ q, parseHeader h p xlenBytes = .ok q ∧ runAttempt (h.drop q) blk = .next blk' ∧ blk'.phase = .done ∧
      FooterPassed h p (q + blk'.br.consumed.toNat) blk'.sink.total blk'.sink.crc v := by
  unfold validateMember at hv
  split at hv
  · cases hv; cases hfile
  next q hparse =>
  split at hv
  · cases hv
  · cases hv; cases hfile
  next t hrun =>
  split at hv
  next total crc consumed hresult =>
    cases hv
    obtain ⟨hdone, rfl, rfl, rfl⟩ := attemptResult_eq_valid hresult
    exact ⟨q, hparse, hrun, hdone, checkFooter_fileValid hfile⟩
  · cases hv; cases hfile
  · cases hv; cases hfile

/-- The header, the consumed bytes and the footer lie inside the buffer. -/
theorem validMember_span {h : List Byte} {p xlenBytes : Nat} {blk blk' : State} {v : MemberVerdict}
    (hv : validateMember h p blk xlenBytes = .ok (v, blk')) (hfile : v.fileValid = true) :
    8 ≤ v.length ∧ p + v.length ≤ h.length := by
  obtain ⟨q, hparse, -, -, hfooter⟩ := validateMember_fileValid hv hfile
  have hbegins := (headerParsed_of_parseHeader hparse).begins
  have hlength := hfooter.length_eq
  have hinside := hfooter.inside
  omega

/-- Settles O53: what the header and the footer passed, put at the member's own offsets. -/
theorem validMemberPassedEveryCheck : Obligations.ValidMemberPassedEveryCheck := by
  intro xlenBytes h p blk blk' v hv hfile
  obtain ⟨q, hparse, hrun, hdone, hfooter⟩ := validateMember_fileValid hv hfile
  have hheader := headerParsed_of_parseHeader hparse
  obtain ⟨flg, hflg, hreserved⟩ := hheader.flags
  obtain ⟨os, hos, hknown⟩ := hheader.os
  obtain ⟨hmin, hinside⟩ := validMember_span hv hfile
  have hbegins := hheader.begins
  have hlength := hfooter.length_eq
  have hend : p + v.length = q + blk'.br.consumed.toNat + 8 := by omega
  have hreserved' : flg.extractLsb' 5 3 = 0 := BitVec.eq_of_toNat_eq (by simp [Nat.shiftRight_eq_div_pow, hreserved])
  have hknown' : os.toNat ≤ 13 ∨ os.toNat = 255 := by simpa [knownOs] using hknown
  refine ⟨hfooter.headerValid, hheader.method, ⟨flg, hflg, hreserved'⟩, ⟨os, hos, hknown'⟩,
    ⟨q, hparse, hheader.ends, hrun, hend⟩, hdone, hmin, hinside, ?_, ?_⟩
  · rw [show p + v.length - 8 = q + blk'.br.consumed.toNat by omega]
    exact hfooter.crc_eq
  · rw [show p + v.length - 4 = q + blk'.br.consumed.toNat + 4 by omega]
    exact hfooter.total_eq

end Sys2Proof.Machine

namespace Sys2Proof.Machine

/-! ### One position of a scan (49_host_interface.md R431 to R434) -/

theorem magicAt_iff {h : List Byte} {i : Nat} :
    magicAt h i = true ↔ h[i]? = some 0x1F#8 ∧ h[i + 1]? = some 0x8B#8 := by
  simp [magicAt]

theorem lt_length_of_magicAt {h : List Byte} {i : Nat} (hm : magicAt h i = true) : i + 1 < h.length :=
  (List.getElem?_eq_some_iff.1 (magicAt_iff.1 hm).2).1

/-- The two bytes of the magic sequence differ, so no sequence begins inside another. -/
theorem not_magicAt_succ {h : List Byte} {i : Nat} (hm : magicAt h i = true) : magicAt h (i + 1) ≠ true := by
  intro hsucc
  have hbytes := (magicAt_iff.1 hm).2.symm.trans (magicAt_iff.1 hsucc).1
  exact absurd hbytes (by decide)

/-- The Finding that a validated occurrence records (49_host_interface.md R430). -/
def findingOf (i : Nat) (v : MemberVerdict) : Finding :=
  { offset := i, headerValid := v.headerValid, fileValid := v.fileValid }

/-- A scan ends at a position, passes over it, or records the occurrence validated there and goes on. -/
inductive ScanStep (cfg : ScanConfig) (h : List Byte) (fuel i : Nat) (blk : State) : ScanResult → Prop where
  | atEnd (hend : h.length ≤ i + 1) : ScanStep cfg h fuel i blk (.done [] [])
  | noMagic (hm : magicAt h i ≠ true) : ScanStep cfg h fuel i blk (scanFrom cfg h fuel (i + 1) blk)
  | refused (r : Refusal) : ScanStep cfg h fuel i blk (.refused r [])
  | blocked : ScanStep cfg h fuel i blk (.resourceFailure [])
  | occurrence {v : MemberVerdict} {blk' : State} (hm : magicAt h i = true)
      (hv : validateMember h i blk cfg.xlenBytes = .ok (v, blk'))
      (hfree : v.fileValid = true → artifactName cfg i ∉ cfg.blocked) :
      ScanStep cfg h fuel i blk ((scanFrom cfg h fuel (resumeAt cfg.thorough i v) blk').after (findingOf i v)
        (memberArtifact cfg h i v))

theorem scanFrom_step (cfg : ScanConfig) (h : List Byte) (fuel i : Nat) (blk : State) :
    ScanStep cfg h fuel i blk (scanFrom cfg h (fuel + 1) i blk) := by
  rw [scanFrom]
  split
  · split
    next hm =>
      split
      · exact .refused _
      next v blk' hv =>
        split
        · exact .blocked
        next hfree => exact .occurrence hm hv (by simpa using hfree)
    next hm => exact .noMagic hm
  next hend => exact .atEnd (Nat.le_of_not_lt hend)

/-- A scan that ends normally: at the end of the buffer, or after a later position, or after a validated occurrence. -/
theorem scanFrom_succ_eq_done {cfg : ScanConfig} {h : List Byte} {fuel i : Nat} {blk : State} {fs : List Finding}
    {as : List Artifact} (hscan : scanFrom cfg h (fuel + 1) i blk = .done fs as) :
    (h.length ≤ i + 1 ∧ fs = [] ∧ as = []) ∨ (magicAt h i ≠ true ∧ scanFrom cfg h fuel (i + 1) blk = .done fs as) ∨
    ∃ v blk' fs' as', magicAt h i = true ∧ validateMember h i blk cfg.xlenBytes = .ok (v, blk') ∧
      scanFrom cfg h fuel (resumeAt cfg.thorough i v) blk' = .done fs' as' ∧
      fs = findingOf i v :: fs' ∧ as = memberArtifact cfg h i v ++ as' := by
  have hstep := scanFrom_step cfg h fuel i blk
  generalize scanFrom cfg h (fuel + 1) i blk = result at hstep hscan
  cases hstep with
  | atEnd hend => cases hscan; exact .inl ⟨hend, rfl, rfl⟩
  | noMagic hm => exact .inr (.inl ⟨hm, hscan⟩)
  | refused r => cases hscan
  | blocked => cases hscan
  | occurrence hm hv hfree =>
    obtain ⟨fs', as', hrest, hfs, has⟩ := ScanResult.after_eq_done.1 hscan
    exact .inr (.inr ⟨_, _, fs', as', hm, hv, hrest, hfs, has⟩)

/-- A valid member has its footer at least, so the scan resumes further on in either mode. -/
theorem lt_resumeAt {h : List Byte} {i xlenBytes : Nat} {blk blk' : State} {v : MemberVerdict}
    (hv : validateMember h i blk xlenBytes = .ok (v, blk')) (thorough : Bool) : i < resumeAt thorough i v := by
  unfold resumeAt
  split
  next hfile =>
    have hvalid : v.fileValid = true := (Bool.and_eq_true_iff.1 hfile).1
    have hmin := (validMember_span hv hvalid).1
    omega
  · omega

/-! ### The Findings (49_host_interface.md R430, R434, R435) -/

/-- The Findings from a position on: each at a magic sequence there or later, in increasing order. -/
theorem scanFrom_findings {cfg : ScanConfig} {h : List Byte} {fuel i : Nat} {blk : State} {fs : List Finding}
    {as : List Artifact} (hscan : scanFrom cfg h fuel i blk = .done fs as) :
    (∀ f ∈ fs, i ≤ f.offset ∧ magicAt h f.offset = true) ∧ fs.Pairwise (fun f g => f.offset < g.offset) := by
  induction fuel generalizing i blk fs as with
  | zero => cases hscan; simp
  | succ fuel ih =>
    rcases scanFrom_succ_eq_done hscan with ⟨-, rfl, -⟩ | ⟨-, hrest⟩ | ⟨v, blk', fs', as', hm, hv, hrest, rfl, -⟩
    · simp
    · obtain ⟨hmem, hsorted⟩ := ih hrest
      exact ⟨fun f hf => ⟨(Nat.le_succ i).trans (hmem f hf).1, (hmem f hf).2⟩, hsorted⟩
    · obtain ⟨hmem, hsorted⟩ := ih hrest
      have hlater : ∀ f ∈ fs', i < f.offset := fun f hf => (lt_resumeAt hv _).trans_le (hmem f hf).1
      refine ⟨List.forall_mem_cons.2 ⟨⟨le_rfl, hm⟩, fun f hf => ⟨(hlater f hf).le, (hmem f hf).2⟩⟩, ?_⟩
      exact List.pairwise_cons.2 ⟨hlater, hsorted⟩

/-- With fuel for every position, a thorough scan passes over no magic sequence. -/
theorem scanFrom_thorough {cfg : ScanConfig} (hthorough : cfg.thorough = true) {h : List Byte} {fuel i : Nat}
    {blk : State} {fs : List Finding} {as : List Artifact} (hscan : scanFrom cfg h fuel i blk = .done fs as)
    (hfuel : h.length ≤ i + fuel) {j : Nat} (hij : i ≤ j) (hj : magicAt h j = true) : ∃ f ∈ fs, f.offset = j := by
  have hjlt := lt_length_of_magicAt hj
  induction fuel generalizing i blk fs as with
  | zero => omega
  | succ fuel ih =>
    rcases scanFrom_succ_eq_done hscan with ⟨hend, -⟩ | ⟨hm, hrest⟩ | ⟨v, blk', fs', as', hm, -, hrest, rfl, -⟩
    · omega
    · have hne : i ≠ j := fun hij => hm (hij ▸ hj)
      exact ih hrest (by omega) (by omega)
    · by_cases hfirst : i = j
      · exact ⟨_, List.mem_cons_self, hfirst⟩
      · have hsucc : i + 1 ≠ j := fun hij => not_magicAt_succ hm (hij ▸ hj)
        have hresume : resumeAt cfg.thorough i v = i + 2 := by simp [resumeAt, hthorough]
        obtain ⟨f, hf, hoffset⟩ := ih (hresume ▸ hrest) (by omega) (by omega)
        exact ⟨f, List.mem_cons_of_mem _ hf, hoffset⟩

/-- A scan that ends normally is the scan loop from the first position (49_host_interface.md R437, R438). -/
theorem scan_eq_done {cfg : ScanConfig} {h : List Byte} {blk : State} {fs : List Finding} {as : List Artifact}
    (hscan : scan cfg h blk = .done fs as) : scanFrom cfg h h.length 0 blk = .done fs as := by
  unfold scan at hscan
  split at hscan
  · exact hscan
  · cases hscan

/-- Settles O54: the scan loop from position 0, with fuel for the whole buffer. -/
theorem findingsAreTheOccurrences : Obligations.FindingsAreTheOccurrences := by
  intro cfg h blk fs as hscan
  have hloop := scan_eq_done hscan
  obtain ⟨hmem, hsorted⟩ := scanFrom_findings hloop
  exact ⟨hsorted, fun f hf => (hmem f hf).2,
    fun hthorough i hi => scanFrom_thorough hthorough hloop (Nat.zero_add _).ge (Nat.zero_le i) hi⟩

/-! ### The artifacts (49_host_interface.md R425, R426, R436 to R438) -/

/-- The exact span of a member found valid, under the name of its offset, which was free. -/
def IsMemberArtifact (cfg : ScanConfig) (h : List Byte) (a : Artifact) : Prop :=
  ∃ i b v b', validateMember h i b cfg.xlenBytes = .ok (v, b') ∧ v.fileValid = true ∧
    a.name = toString i ++ cfg.outExt ∧ a.bytes = (h.drop i).take v.length ∧ a.bytes.length = v.length ∧
    a.name ∉ cfg.blocked

theorem isMemberArtifact_of_mem {cfg : ScanConfig} {h : List Byte} {i : Nat} {blk blk' : State} {v : MemberVerdict}
    (hv : validateMember h i blk cfg.xlenBytes = .ok (v, blk'))
    (hfree : v.fileValid = true → artifactName cfg i ∉ cfg.blocked) :
    ∀ a ∈ memberArtifact cfg h i v, IsMemberArtifact cfg h a := by
  cases hfile : v.fileValid with
  | false => simp [hfile]
  | true =>
    have hinside := (validMember_span hv hfile).2
    have hlength : ((h.drop i).take v.length).length = v.length := by
      rw [List.length_take, List.length_drop]
      omega
    simpa [hfile] using ⟨i, blk, v, blk', hv, hfile, rfl, rfl, hlength, hfree hfile⟩

theorem scanFrom_artifacts (cfg : ScanConfig) (h : List Byte) (fuel i : Nat) (blk : State) :
    ∀ a ∈ (scanFrom cfg h fuel i blk).artifacts, IsMemberArtifact cfg h a := by
  induction fuel generalizing i blk with
  | zero => simp [scanFrom]
  | succ fuel ih =>
    have hstep := scanFrom_step cfg h fuel i blk
    generalize scanFrom cfg h (fuel + 1) i blk = result at hstep
    cases hstep with
    | atEnd => simp
    | noMagic hm => exact ih (i + 1) blk
    | refused r => simp
    | blocked => simp
    | occurrence hm hv hfree =>
      rw [ScanResult.artifacts_after]
      exact List.forall_mem_append.2 ⟨isMemberArtifact_of_mem hv hfree, ih _ _⟩

theorem memberArtifact_names (cfg : ScanConfig) (h : List Byte) (i : Nat) (v : MemberVerdict) :
    (memberArtifact cfg h i v).map Artifact.name =
      ([findingOf i v].filter (·.fileValid)).map fun f => toString f.offset ++ cfg.outExt := by
  cases hfile : v.fileValid <;> simp [findingOf, artifactName, hfile]

theorem scanFrom_names {cfg : ScanConfig} {h : List Byte} {fuel i : Nat} {blk : State} {fs : List Finding}
    {as : List Artifact} (hscan : scanFrom cfg h fuel i blk = .done fs as) :
    as.map Artifact.name = (fs.filter (·.fileValid)).map fun f => toString f.offset ++ cfg.outExt := by
  induction fuel generalizing i blk fs as with
  | zero => cases hscan; rfl
  | succ fuel ih =>
    rcases scanFrom_succ_eq_done hscan with ⟨-, rfl, rfl⟩ | ⟨-, hrest⟩ | ⟨v, blk', fs', as', -, -, hrest, rfl, rfl⟩
    · rfl
    · exact ih hrest
    · rw [List.map_append, memberArtifact_names, ih hrest, ← List.map_append, ← List.filter_append,
        List.singleton_append]

/-- Settles O57: the artifacts and their names, occurrence by occurrence; a scan that is not begun creates none. -/
theorem artifactsAreTheValidMembers : Obligations.ArtifactsAreTheValidMembers := by
  refine fun cfg h blk => ⟨?_, fun fs as hscan => scanFrom_names (scan_eq_done hscan)⟩
  unfold scan
  split
  · exact scanFrom_artifacts cfg h h.length 0 blk
  · exact nofun

end Sys2Proof.Machine

namespace Sys2Proof.Machine

/-! ### Readers that differ in a dead partial byte (10_state.md R38, 41_bitreader.md R201) -/

/-- The same reader, but for the contents of BR_BYTE while it holds no unconsumed bit. -/
structure BitReader.Agrees (r r' : BitReader) : Prop where
  cnt_eq : r.cnt = r'.cnt
  consumed_eq : r.consumed = r'.consumed
  exh_eq : r.exh = r'.exh
  byte_eq : r.cnt ≠ 0 → r.byte = r'.byte

theorem BitReader.Agrees.refl (r : BitReader) : r.Agrees r := ⟨rfl, rfl, rfl, fun _ => rfl⟩

theorem BitReader.Agrees.moveToByteBoundary {r r' : BitReader} (h : r.Agrees r') :
    (moveToByteBoundary r).Agrees (moveToByteBoundary r') :=
  ⟨rfl, h.consumed_eq, h.exh_eq, fun hcnt => absurd rfl hcnt⟩

/-- Two fetches that answer the same value with the same reader, or are both exhausted. -/
inductive Fetched.SameAs {α : Type} : Fetched α → Fetched α → Prop
  | ok (v : α) (r : BitReader) : SameAs (.ok v r) (.ok v r)
  | exhausted (r r' : BitReader) : SameAs (.exhausted r) (.exhausted r')

theorem Fetched.SameAs.refl {α : Type} (f : Fetched α) : f.SameAs f := by
  cases f with
  | ok v r => exact .ok v r
  | exhausted r => exact .exhausted r r

section
variable {α β : Type} {f f' : Fetched α} (h : f.SameAs f')
include h

/-- What follows the same first fetch is one and the same. -/
theorem Fetched.SameAs.andThen (k : α → BitReader → Fetched β) : (f.andThen k).SameAs (f'.andThen k) := by
  cases h with
  | ok v r => exact .refl (k v r)
  | exhausted r r' => exact .exhausted r r'

theorem Fetched.SameAs.map (g : α → β) : (f.map g).SameAs (f'.map g) := by
  cases h with
  | ok v r => exact .ok (g v) r
  | exhausted r r' => exact .exhausted r r'

end

section
variable {inp : List Byte} {r r' : BitReader} (h : r.Agrees r')
include h

/-- A refill overwrites the partial byte, and one that is not refilled agrees already. -/
theorem fetchBit_sameAs : (fetchBit inp r).SameAs (fetchBit inp r') := by
  obtain ⟨byte, cnt, consumed, exh⟩ := r
  obtain ⟨byte', cnt', consumed', exh'⟩ := r'
  obtain ⟨rfl, rfl, rfl, hbyte⟩ := h
  dsimp only at hbyte
  unfold fetchBit refill
  dsimp only
  split
  · exact .exhausted _ _
  · split
    · split
      · exact .refl _
      · exact .exhausted _ _
    next hcnt =>
      rw [hbyte hcnt]
      exact .refl _

theorem fetchBits_sameAs {n : Nat} (hn : n ≠ 0) : (fetchBits inp n r).SameAs (fetchBits inp n r') := by
  obtain ⟨n, rfl⟩ := Nat.exists_eq_succ_of_ne_zero hn
  exact (fetchBit_sameAs h).andThen _

theorem codedElement_sameAs (tree : Trie) (invalid : DecodeError) (element : Nat → List Byte → BitReader → Decoded) :
    (codedElement tree invalid element inp r).SameAs (codedElement tree invalid element inp r') :=
  ((fetchBit_sameAs h).andThen _).andThen _

/-- Every element begins with a fetched bit, so agreeing readers decode the same element. -/
theorem decodeElement_sameAs (c : Context) : (decodeElement c inp r).SameAs (decodeElement c inp r') := by
  cases c with
  | header | storedByte | clLength => exact (fetchBits_sameAs h (by decide)).map _
  | storedHeader => exact (fetchBits_sameAs h.moveToByteBoundary (by decide)).andThen _
  | dynHeader => exact (fetchBits_sameAs h (by decide)).andThen _
  | clSymbol tree hasPrev => exact codedElement_sameAs h tree _ _
  | litLen tree => exact codedElement_sameAs h tree _ _
  | dist tree => exact codedElement_sameAs h tree _ _

end

/-! ### Sinks that hold the same output (44_window.md R270, R272, R273) -/

/-- Both sinks hold the output `o` of their attempts, which came after `p` and `p'` on OUT. -/
structure Sink.BothHold (p p' : List Byte) (o : List Byte) (k k' : Sink) : Prop where
  ram_wf : Memory.wf k.ram
  ram_wf' : Memory.wf k'.ram
  out_eq : k.out = p ++ o
  out_eq' : k'.out = p' ++ o
  holds : k.Holds o
  holds' : k'.Holds o

section
variable {p p' o : List Byte} {k k' : Sink} (h : Sink.BothHold p p' o k k')
include h

theorem Sink.BothHold.append (b : Byte) : Sink.BothHold p p' (o ++ [b]) (k.append b) (k'.append b) where
  ram_wf := Sink.append_ram_wf h.ram_wf b
  ram_wf' := Sink.append_ram_wf h.ram_wf' b
  out_eq := by rw [Sink.append_out, h.out_eq, List.append_assoc]
  out_eq' := by rw [Sink.append_out, h.out_eq', List.append_assoc]
  holds := h.holds.append h.ram_wf b
  holds' := h.holds'.append h.ram_wf' b

theorem Sink.BothHold.held_eq : k.held.toNat = k'.held.toNat := h.holds.held_eq.trans h.holds'.held_eq.symm

theorem Sink.BothHold.total_eq : k.total = k'.total :=
  BitVec.eq_of_toNat_eq (h.holds.total_eq.trans h.holds'.total_eq.symm)

theorem Sink.BothHold.crc_eq : k.crc = k'.crc := h.holds.crc_eq.trans h.holds'.crc_eq.symm

/-- A byte that is held is the byte of the output. -/
theorem Sink.BothHold.byteBack_eq {back : Nat} (hback : back < k.held.toNat) : k.byteBack back = k'.byteBack back :=
  Option.some.inj ((h.holds.window_eq back hback).symm.trans (h.holds'.window_eq back (h.held_eq ▸ hback)))

end

/-- The copies of held bytes hold the same output again (44_window.md R275). -/
theorem Sink.BothHold.copy {p p' o : List Byte} {k k' : Sink} (h : Sink.BothHold p p' o k k') {back : Nat}
    (hback : back < k.held.toNat) (n : Nat) :
    ∃ o', Sink.BothHold p p' o' (k.copy back n) (k'.copy back n) := by
  induction n generalizing o k k' with
  | zero => exact ⟨o, h⟩
  | succ n ih =>
    rw [Sink.copy_succ, Sink.copy_succ, ← h.byteBack_eq hback]
    refine ih (h.append _) ?_
    have hold := h.holds.held_eq
    rw [(h.append _).holds.held_eq, List.length_append]
    omega

/-! ### LENS below LENS_IDX (46_dynamic_header.md R336) -/

/-- The entries that the attempt has stored are the same. -/
def LensAgree (n : Nat) (lens lens' : Vector (BitVec 4) 318) : Prop :=
  ∀ i < n, ∀ hi : i < 318, lens[i] = lens'[i]

theorem LensAgree.fill {n : Nat} {lens lens' : Vector (BitVec 4) 318} (h : LensAgree n lens lens') (v : BitVec 4)
    (rep : Nat) : LensAgree (n + rep) (fillLens v rep n lens) (fillLens v rep n lens') := by
  intro i hn hi
  rw [fillLens_getElem, fillLens_getElem]
  split
  · rfl
  next hout => exact h i (by omega) hi

end Sys2Proof.Machine

namespace Sys2Proof.Machine

theorem LensAgree.take_eq {n : Nat} {lens lens' : Vector (BitVec 4) 318} (h : LensAgree n lens lens') :
    lens.toList.take n = lens'.toList.take n := by
  refine List.ext_getElem (by simp) fun i hi _ => ?_
  obtain ⟨hn, hsize⟩ : i < n ∧ i < 318 := by simpa using hi
  simpa using h i hn hsize

/-! ### Two attempts on the same IN (49_host_interface.md R409) -/

/-- The state with what an earlier attempt can leave behind, or a draw decides, replaced. -/
abbrev State.withPast (s : State) (br : BitReader) (sink : Sink) (lens : Vector (BitVec 4) 318) (draws : Nat) : State :=
  { s with br := br, sink := sink, lens := lens, freeDraws := draws }

/-- Two attempts at the same point, after `p` and `p'` had been emitted: both have failed alike and emitted the same, or
they differ only in what no rule reads. -/
inductive SameAttempt (p p' : List Byte) : State → State → Prop
  | failed (kind : FailKind) (cause : FailCause) {u u' : State} {o : List Byte} (hout : u.sink.out = p ++ o)
      (hout' : u'.sink.out = p' ++ o) : SameAttempt p p' (raiseFail kind cause u) (raiseFail kind cause u')
  | live {s : State} {br : BitReader} {sink : Sink} {lens : Vector (BitVec 4) 318} {draws : Nat} {o : List Byte}
      (hbr : s.br.Agrees br) (hsink : Sink.BothHold p p' o s.sink sink)
      (hlens : LensAgree s.lensIdx.toNat s.lens lens) : SameAttempt p p' s (s.withPast br sink lens draws)

/-- The two steps stop alike, or go on with the attempts at the same point. -/
inductive SameResult (p p' : List Byte) : Result → Result → Prop
  | next {t t' : State} (h : SameAttempt p p' t t') : SameResult p p' (.next t) (.next t')
  | fault (f : Fault) : SameResult p p' (.fault f) (.fault f)

section
variable {p p' : List Byte} {s : State} {br : BitReader} {sink : Sink} {lens : Vector (BitVec 4) 318} {draws : Nat}
  {o : List Byte} (hbr : s.br.Agrees br) (hsink : Sink.BothHold p p' o s.sink sink)
  (hlens : LensAgree s.lensIdx.toNat s.lens lens)

include hsink in
theorem failStructural_sameResult (cause : FailCause) {u u' : State} (hu : u.sink = s.sink) (hu' : u'.sink = sink) :
    SameResult p p' (.next (failStructural cause u)) (.next (failStructural cause u')) :=
  .next (.failed _ _ (hu ▸ hsink.out_eq) (hu' ▸ hsink.out_eq'))

include hlens in
/-- The length that symbol 16 repeats has been stored in the attempt. -/
theorem previousLength_withPast (h : s.lensIdx ≠ 0) :
    previousLength s = previousLength (s.withPast br sink lens draws) := by
  have hpos : s.lensIdx.toNat ≠ 0 := fun h0 => h (BitVec.eq_of_toNat_eq h0)
  unfold previousLength
  by_cases hi : s.lensIdx.toNat - 1 < 318
  · have hentry := hlens (s.lensIdx.toNat - 1) (by omega) hi
    simp [hi, hentry]
  · simp [hi]

include hbr hsink hlens

theorem copyMatch_sameResult (code e : Nat) :
    SameResult p p' (copyMatch code e s) (copyMatch code e (s.withPast br sink lens draws)) := by
  cases hm : s.matchLen with
  | none =>
    rw [copyMatch_of_no_pending hm, copyMatch_of_no_pending (s := s.withPast br sink lens draws) hm]
    exact .fault _
  | some len =>
    rcases Nat.lt_or_ge (backDistance code e) s.sink.held.toNat with hheld | hfar
    · obtain ⟨o', hcopy⟩ := hsink.copy hheld len
      have hheld' : backDistance code e < sink.held.toNat := hsink.held_eq ▸ hheld
      rw [copyMatch_of_lt_held hm hheld, copyMatch_of_lt_held (s := s.withPast br sink lens draws) hm hheld']
      exact .next (.live hbr hcopy hlens)
    · have hfar' : sink.held.toNat ≤ backDistance code e := hsink.held_eq ▸ hfar
      rw [copyMatch_of_held_le hm hfar, copyMatch_of_held_le (s := s.withPast br sink lens draws) hm hfar']
      exact failStructural_sameResult hsink _ rfl rfl

theorem storeLengths_sameResult (rep : Nat) (v : BitVec 4) :
    SameResult p p' (storeLengths rep v s) (storeLengths rep v (s.withPast br sink lens draws)) := by
  unfold storeLengths
  dsimp only
  split
  · exact failStructural_sameResult hsink _ rfl rfl
  next hfits =>
    have htotal : lensTotal s.hlit s.hdist ≤ 320 := by unfold lensTotal; omega
    have hnext : (s.lensIdx + BitVec.ofNat 9 rep).toNat = s.lensIdx.toNat + rep := by bv_omega
    exact .next (.live hbr hsink (hnext ▸ hlens.fill v rep))

theorem execClRepPrev_sameResult (e : BitVec 2) :
    SameResult p p' (execClRepPrev e s) (execClRepPrev e (s.withPast br sink lens draws)) := by
  by_cases hfirst : s.lensIdx = 0
  · rw [execClRepPrev_of_first hfirst, execClRepPrev_of_first (s := s.withPast br sink lens draws) hfirst]
    exact failStructural_sameResult hsink _ rfl rfl
  · rw [execClRepPrev_of_previous hfirst, execClRepPrev_of_previous (s := s.withPast br sink lens draws) hfirst,
      ← previousLength_withPast hlens hfirst]
    exact storeLengths_sameResult hbr hsink hlens _ _

theorem execStoredHdr_sameResult (len nlen : BitVec 16) :
    SameResult p p' (execStoredHdr len nlen s) (execStoredHdr len nlen (s.withPast br sink lens draws)) := by
  unfold execStoredHdr
  dsimp only
  split_ifs
  · exact failStructural_sameResult hsink _ rfl rfl
  · exact .next (.live hbr hsink hlens)
  · exact .next (.live hbr hsink hlens)

theorem execDynHdr_sameResult (hlit hdist : BitVec 5) (hclen : BitVec 4) :
    SameResult p p' (execDynHdr hlit hdist hclen s) (execDynHdr hlit hdist hclen (s.withPast br sink lens draws)) := by
  unfold execDynHdr
  dsimp only
  split_ifs
  · exact failStructural_sameResult hsink _ rfl rfl
  · exact .next (.live hbr hsink hlens)

theorem execClLength_sameResult (v : BitVec 3) :
    SameResult p p' (execClLength v s) (execClLength v (s.withPast br sink lens draws)) := by
  rw [execClLength_eq, execClLength_eq]
  exact .next (.live hbr hsink hlens)

theorem execStoredByte_sameResult (b : Byte) :
    SameResult p p' (execStoredByte b s) (execStoredByte b (s.withPast br sink lens draws)) := by
  rw [execStoredByte_eq, execStoredByte_eq]
  exact .next (.live hbr (hsink.append b) hlens)

/-- No meaning reads what the past or a draw left. -/
theorem exec_sameResult (i : Instr) : SameResult p p' (exec i s) (exec i (s.withPast br sink lens draws)) := by
  cases i
  case blockStored | blockFixed | blockDynamic | eob => exact .next (.live hbr hsink hlens)
  case blockReserved | llInvalid286 | llInvalid287 | distInvalid30 | distInvalid31 =>
    exact failStructural_sameResult hsink _ rfl rfl
  case storedHdr len nlen => exact execStoredHdr_sameResult hbr hsink hlens len nlen
  case storedByte b => exact execStoredByte_sameResult hbr hsink hlens b
  case dynHdr hlit hdist hclen => exact execDynHdr_sameResult hbr hsink hlens hlit hdist hclen
  case clLength len => exact execClLength_sameResult hbr hsink hlens len
  case clRepPrev extra => exact execClRepPrev_sameResult hbr hsink hlens extra
  case clLen | clRepZeroShort | clRepZeroLong => exact storeLengths_sameResult hbr hsink hlens _ _
  case lit b => exact .next (.live hbr (hsink.append b) hlens)
  case len257 | len258 | len259 | len260 | len261 | len262 | len263 | len264 | len265 | len266 | len267 |
      len268 | len269 | len270 | len271 | len272 | len273 | len274 | len275 | len276 | len277 | len278 | len279 |
      len280 | len281 | len282 | len283 | len284 | len285 =>
    exact .next (.live hbr hsink hlens)
  all_goals exact copyMatch_sameResult hbr hsink hlens _ _

theorem runElement_sameResult (c : Context) :
    SameResult p p' (runElement c s) (runElement c (s.withPast br sink lens draws)) := by
  have hsame : (decodeElement c s.inBytes s.br).SameAs (decodeElement c s.inBytes br) := decodeElement_sameAs hbr c
  generalize hd : decodeElement c s.inBytes s.br = d, hd' : decodeElement c s.inBytes br = d' at hsame
  cases hsame with
  | ok v r =>
    cases v with
    | ok i =>
      rw [runElement_of_decoded hd, runElement_of_decoded (s := s.withPast br sink lens draws) hd']
      exact exec_sameResult (s := s.withReader r) (.refl r) hsink hlens i
    | error e =>
      rw [runElement_of_failsAs (d := .error e) rfl hd,
        runElement_of_failsAs (d := .error e) rfl (s := s.withPast br sink lens draws) hd']
      exact failStructural_sameResult hsink _ rfl rfl
  | exhausted r r' =>
    rw [runElement_of_exhausted hd, runElement_of_exhausted (s := s.withPast br sink lens draws) hd']
    exact .next (.failed _ _ hsink.out_eq hsink.out_eq')

end

/-- The distance that completes a pair is read and run alike too (47_symbols.md R378). -/
theorem SameResult.finishPair {p p' : List Byte} {o o' : Result} (h : SameResult p p' o o') :
    SameResult p p' (finishPair o) (finishPair o') := by
  cases h with
  | fault f => exact .fault f
  | @next t t' h =>
    cases h with
    | failed kind cause hout hout' => exact .next (.failed kind cause hout hout')
    | @live _ br sink lens draws _ hbr hsink hlens =>
      cases hm : t.matchLen with
      | none =>
        rw [finishPair_of_no_pending hm, finishPair_of_no_pending (t := t.withPast br sink lens draws) hm]
        exact .next (.live hbr hsink hlens)
      | some len =>
        have hpending : t.matchLen.isSome = true := by rw [hm]; rfl
        rw [finishPair_of_pending hpending, finishPair_of_pending (t := t.withPast br sink lens draws) hpending]
        exact runElement_sameResult hbr hsink hlens _

/-! ### One step of both -/

theorem step_sym_of_pending {s : State} (hp : s.phase = .sym) (hm : s.matchLen.isSome = true) :
    step s = runElement (.dist (distTree s)) s := by
  simp [step, stepPhase, hp, hm]

theorem waiting_of_not_live {s : State} (h : s.phase.live ≠ true) :
    s.phase = .idle ∨ s.phase = .done ∨ s.phase = .failed := by
  cases hp : s.phase
  case idle | done | failed => simp
  all_goals simp [hp, Phase.live] at h

section
variable {p p' : List Byte} {s : State} {br : BitReader} {sink : Sink} {lens : Vector (BitVec 4) 318} {draws : Nat}
  {o : List Byte} (hbr : s.br.Agrees br) (hsink : Sink.BothHold p p' o s.sink sink)
  (hlens : LensAgree s.lensIdx.toNat s.lens lens)

include hlens in
/-- When every length has been stored, the lengths of both trees are the same (46_dynamic_header.md R344). -/
theorem lengths_withPast (hall : s.lensIdx.toNat = lensTotal s.hlit s.hdist) :
    litLenLengths (s.withPast br sink lens draws) = litLenLengths s ∧
      distLengths (s.withPast br sink lens draws) = distLengths s := by
  have htotal : lensTotal s.hlit s.hdist = litLenCount s.hlit + distCount s.hdist := by
    unfold lensTotal litLenCount distCount
    omega
  have htake := (hall ▸ hlens).take_eq
  have hlitLen := congrArg (List.take (litLenCount s.hlit)) htake
  have hdist := congrArg (List.drop (litLenCount s.hlit)) htake
  rw [htotal, List.take_take, List.take_take, Nat.min_eq_left (Nat.le_add_right _ _)] at hlitLen
  rw [htotal, List.drop_take, List.drop_take, Nat.add_sub_cancel_left] at hdist
  exact ⟨congrArg (List.map BitVec.toNat) hlitLen.symm, congrArg (List.map BitVec.toNat) hdist.symm⟩

include hbr hsink

theorem stepClBuild_sameResult :
    SameResult p p' (.next (stepClBuild s)) (.next (stepClBuild (s.withPast br sink lens draws))) := by
  unfold stepClBuild
  dsimp only
  split
  · exact failStructural_sameResult hsink _ rfl rfl
  · exact .next (.live hbr hsink fun i hi => absurd hi (Nat.not_lt_zero i))

include hlens

theorem stepBuild_sameResult (hall : s.lensIdx.toNat = lensTotal s.hlit s.hdist) :
    SameResult p p' (.next (stepBuild s)) (.next (stepBuild (s.withPast br sink lens draws))) := by
  obtain ⟨hlitLen, hdist⟩ := lengths_withPast (br := br) (sink := sink) (draws := draws) hlens hall
  rw [stepBuild, stepBuild, hlitLen, hdist]
  split
  · exact failStructural_sameResult hsink _ rfl rfl
  · split
    · exact failStructural_sameResult hsink _ rfl rfl
    · exact .next (.live hbr hsink hlens)

theorem step_sameResult (hall : s.phase = .dynBuild → s.lensIdx.toNat = lensTotal s.hlit s.hdist) :
    SameResult p p' (step s) (step (s.withPast br sink lens draws)) := by
  by_cases hlive : s.phase.live = true
  · by_cases hcl : s.phase = .dynClBuild
    · rw [step_clBuild hcl, step_clBuild (s := s.withPast br sink lens draws) hcl]
      exact stepClBuild_sameResult hbr hsink
    by_cases hbuild : s.phase = .dynBuild
    · rw [step_build hbuild, step_build (s := s.withPast br sink lens draws) hbuild]
      exact stepBuild_sameResult hbr hsink hlens (hall hbuild)
    by_cases hsym : s.phase = .sym
    · cases hm : s.matchLen with
      | none =>
        rw [step_sym hsym hm, step_sym (s := s.withPast br sink lens draws) hsym hm]
        exact (runElement_sameResult hbr hsink hlens _).finishPair
      | some len =>
        have hpending : s.matchLen.isSome = true := by rw [hm]; rfl
        rw [step_sym_of_pending hsym hpending,
          step_sym_of_pending (s := s.withPast br sink lens draws) hsym hpending]
        exact runElement_sameResult hbr hsink hlens _
    · obtain ⟨c, hc⟩ := elementContext_of_live hlive hcl hbuild
      rw [step_element hsym hc, step_element (s := s.withPast br sink lens draws) hsym hc]
      exact runElement_sameResult hbr hsink hlens c
  · have hwaiting := waiting_of_not_live hlive
    rw [waitingPhaseTakesNoStep s hwaiting, waitingPhaseTakesNoStep (s.withPast br sink lens draws) hwaiting]
    exact .fault _

end

/-! ### Whole attempts -/

/-- The invariant gives what DYN_BUILD relies on (46_dynamic_header.md R344). -/
theorem State.Inv.lens_complete {s : State} (hs : s.Inv) (hp : s.phase = .dynBuild) :
    s.lensIdx.toNat = lensTotal s.hlit s.hdist := by
  have hheader := hs.header (by simp [hp])
  simp only [HeaderInv, hp] at hheader
  exact hheader.2

/-- Every number of steps keeps two attempts at the same point; the invariant of one of them is enough. -/
theorem runSteps_sameAttempt {p p' : List Byte} (n : Nat) {s s' : State} (h : SameAttempt p p' s s') (hs : s.Inv) :
    SameAttempt p p' (runSteps step n s) (runSteps step n s') := by
  induction n generalizing s s' with
  | zero => exact h
  | succ n ih =>
    cases h with
    | failed kind cause hout hout' =>
      rw [runSteps_of_finished (.inr rfl), runSteps_of_finished (.inr rfl)]
      exact .failed kind cause hout hout'
    | @live _ br sink lens draws _ hbr hsink hlens =>
      have hstep := step_sameResult hbr hsink hlens (draws := draws) hs.lens_complete
      generalize hnext : step s = r, hnext' : step (s.withPast br sink lens draws) = r' at hstep
      cases hstep with
      | next h =>
        rw [runSteps_succ hnext, runSteps_succ hnext']
        exact ih h (stepKeepsInvariant s _ hs hnext)
      | fault f =>
        rw [runSteps, runSteps, hnext, hnext']
        exact .live hbr hsink hlens

/-- START on the same IN: nothing has been emitted, no length is stored, and the reader holds no bit. -/
theorem startCommand_sameAttempt {launch : List Byte} {s s' t t' : State} (hram : Memory.wf s.sink.ram)
    (hram' : Memory.wf s'.sink.ram) (h : startCommand launch s = .next t) (h' : startCommand launch s' = .next t') :
    SameAttempt s.sink.out s'.sink.out t t' := by
  obtain ⟨-, rfl⟩ := startCommand_eq_next h
  obtain ⟨-, rfl⟩ := startCommand_eq_next h'
  exact .live ⟨rfl, rfl, rfl, fun hcnt => absurd rfl hcnt⟩
    ⟨hram, hram', (List.append_nil _).symm, (List.append_nil _).symm, Sink.fresh_holds _ _, Sink.fresh_holds _ _⟩
    fun i hi => absurd hi (Nat.not_lt_zero i)

/-- Settles O12: START puts the two attempts at the same point, and every step keeps them there. -/
theorem attemptIgnoresHistory : Obligations.AttemptIgnoresHistory := by
  intro s1 s2 t1 t2 launch n hram1 hram2 h1 h2
  have hsame := runSteps_sameAttempt n (startCommand_sameAttempt hram1 hram2 h1 h2) (startCommand_inv hram1 h1)
  dsimp only
  generalize runSteps step n t1 = u1, runSteps step n t2 = u2 at hsame
  cases hsame with
  | failed kind cause hout hout' => exact ⟨rfl, rfl, rfl, fun hp => absurd rfl hp, _, hout, hout'⟩
  | live hbr hsink hlens =>
    exact ⟨rfl, rfl, rfl, fun _ => ⟨hbr.consumed_eq, hsink.total_eq, hsink.crc_eq⟩, _, hsink.out_eq, hsink.out_eq'⟩

end Sys2Proof.Machine
